-- ==== Sys2Proof/Word.lean ====
section
/-! DEFINITION. The machine's words and their plainest arithmetic (00_scope.md: little-endian, bits from 0). -/
namespace Sys2Proof

/-- One byte of memory. -/
abbrev Byte := BitVec 8
/-- A register, a scalar g register of a spur core. -/
abbrev Word := BitVec 64
/-- A vector register of a spur core (512 bits) or a w register of a grotto core (1,024 bits) is held as a
`Nat` below 2^1024; its width is the agent's. -/
abbrev Vec := BitVec 1024
/-- An FP32 lane or accumulator element. -/
abbrev W32 := BitVec 32
/-- A status code (Table FLT-5). -/
abbrev Code := BitVec 16

end Sys2Proof
end

