-- ==== Sys2Proof/Syntax.lean ====
section
/-! DEFINITION. The commands of the block: one constructor of `Instr` per row of spec/opcode_table.json, and
the operand types they carry.  The table gives its rows no bits, so operands are typed values; an Alori
instruction row carries the unit that issues it and the fields of its instruction word (Tables ALR-1a to
ALR-1h), the reserved ones included. -/
namespace Sys2Proof

/-- Who issues an Alori instruction: context `n` of logical tile `t` (R75), or a grotto core by its AGENT
(Table GRT-1). -/
inductive Agent where
  | spur (t : Fin 512) (n : Fin 8)
  | grotto (k : Fin 512)
  deriving DecidableEq, Repr

/-- Format A (Table ALR-1a), less OP and FN. -/
structure FmtA where
  rd : BitVec 5
  ra : BitVec 5
  rb : BitVec 5
  deriving DecidableEq, Repr

/-- Format I (Table ALR-1b), less OP. -/
structure FmtI where
  rd : BitVec 5
  ra : BitVec 5
  imm : BitVec 16
  deriving DecidableEq, Repr

/-- Format B (Table ALR-1c), less OP. -/
structure FmtB where
  ra : BitVec 5
  rb : BitVec 5
  off : BitVec 16
  deriving DecidableEq, Repr

/-- Format J (Table ALR-1d), less OP. -/
structure FmtJ where
  off : BitVec 26
  deriving DecidableEq, Repr

/-- Format M (Table ALR-1e), less OP. -/
structure FmtM where
  rt : BitVec 5
  ra : BitVec 5
  sp : BitVec 2
  sz : BitVec 2
  off : BitVec 12
  deriving DecidableEq, Repr

/-- Format MV (Table ALR-1f), less OP. -/
structure FmtMV where
  vt : BitVec 5
  ra : BitVec 5
  sp : BitVec 2
  p : BitVec 3
  off : BitVec 11
  deriving DecidableEq, Repr

/-- Format V (Table ALR-1g), less OP and FN. -/
structure FmtV where
  vd : BitVec 5
  va : BitVec 5
  vb : BitVec 5
  pm : BitVec 3
  s : Bool
  t : BitVec 3
  deriving DecidableEq, Repr

/-- Format Q (Table ALR-1h), less OP and FN. -/
structure FmtQ where
  rd : BitVec 5
  ra : BitVec 5
  rb : BitVec 5
  rc : BitVec 5
  deriving DecidableEq, Repr

/-- The part of a 64-bit register that an access names (R473). -/
inductive Half where
  | full | low | high
  deriving DecidableEq, Repr

/-- A register access by a host: port 1 or 0, the function (`0` PF0, `k` VF k), and its width. -/
structure Acc where
  port : Bool
  vf : Fin 33
  half : Half
  deriving DecidableEq, Repr

/-- A register access at a raw BAR0 offset, of any width in bits (R473). -/
structure RegAccess where
  port : Bool
  vf : Fin 33
  off : Nat
  bits : Nat
  deriving DecidableEq, Repr

/-- A counter of this device: block and index (Table SYNC-1), block 0xFFF already resolved. -/
structure Cnt where
  block : Nat
  index : Nat
  deriving DecidableEq, Repr

/-- What resumes in a tile: a context or a queue head (R82). -/
inductive Waiter where
  | ctx (n : Fin 8)
  | queue (q : Fin 3)
  deriving DecidableEq, Repr

/-- What a diagnosis finds (table of R68): nothing, one bad reduction row, a bad check column (R70), any other fault. -/
inductive DiagFinding where
  | notReproduced
  | oneBadRow (row : Fin 129)
  | checkColumn
  | other
  deriving DecidableEq, Repr

/-- A request that reaches a stack controller, from a tile or another agent of a partition (R209, R212). -/
structure StackReq where
  part : Fin 32
  addr : Nat
  write : Bool
  tile : Option (Fin 512)
  deriving DecidableEq, Repr

/-- Storage that a fill completes for (R225). -/
inductive FillTarget where
  | cluster (c : Fin 32)
  | range (s : Fin 8) (r : Fin 64)
  deriving DecidableEq, Repr

/-- What a scrub pass covers (R232). -/
inductive ScrubTarget where
  | slice (h : Fin 544)
  | stack (s : Fin 8)
  deriving DecidableEq, Repr

/-- Margins that a sweep measures on one channel, before and after its one retraining (R238), in the units of
MEMC_MARGINc. -/
structure Margin where
  vhi : Nat
  vlo : Nat
  tright : Nat
  tleft : Nat
  deriving DecidableEq, Repr

/-- An error domain with a drip counter (R230). -/
inductive DripDomain where
  | slice (h : Fin 544)
  | store (h : Fin 544)
  | channel (s : Fin 8) (c : Fin 32)
  | localStore (k : Fin 512)
  deriving DecidableEq, Repr

/-- A block with a DRIPCFG register. -/
inductive DripBlock where
  | tile (h : Fin 544)
  | memc (s : Fin 8)
  | grt (s : Fin 4)
  deriving DecidableEq, Repr

/-- One echo of R293, in units of 2^-4 ns: T2 and T3 as the responder gives them, and how long before its answer the request
passed the timestamp point, T4 - T1; T4 is the device's own time. -/
structure EchoTimes where
  since : Nat
  t2 : Int
  t3 : Int
  deriving DecidableEq, Repr

/-- How the training of a link goes (Table FAB-1): the lanes that trained, what the peer says of itself in step 3, and the
echoes of step 4 that have been answered. -/
structure LinkTraining where
  lanes : BitVec 4
  peerDev : BitVec 14
  peerLink : Fin 48
  peerWidth : Nat
  echoes : List EchoTimes
  deriving DecidableEq, Repr

/-- What a control unit carries (R288): data units acknowledged, credits returned on each virtual channel, the peer's width
code, and whether it asks for an echo. -/
structure Control where
  acked : Nat
  credit0 : Nat
  credit1 : Nat
  width : Nat
  echo : Bool
  deriving DecidableEq, Repr

/-- A frame as it arrives on a link (R287, R291). -/
inductive Frame where
  | good (corrected : Nat) (ctl : Control)
  | uncorrectable
  | crcError
  deriving DecidableEq, Repr

/-- An echo as the requester sees it, `none` where it is missed, with what the peer says of itself. -/
structure EchoData where
  times : Option EchoTimes
  peerHops : Nat
  peerLocked : Bool
  e0 : Word
  deriving DecidableEq, Repr

/-- A PTM answer: the PTM master time of the request's instant, in units of 2^-4 ns (R305). -/
structure PtmReply where
  master : Int
  deriving DecidableEq, Repr

/-- The header unit of a transfer (R298).  `len` is the LEN field; a remote CADD has none. `latency` and `cycles` are the model's
own (log entry 98): the segments of Table FAB-3 as far as the transfer has come, and k, the cycles of a unit on the narrowest
link so far. -/
structure FabHeader where
  srcDev : BitVec 14
  srcPart : Fin 32
  srcTile : Nat
  srcUnit : Nat
  dstDev : BitVec 14
  dpart : Nat
  dsp : Nat
  dst : Nat
  len : Option Nat
  managed : Bool
  vc1 : Bool
  signal : Option (Nat × Nat)
  stampStep : Nat
  start : Nat
  latency : Nat
  cycles : Nat
  deriving DecidableEq, Repr

/-- A delivery failure notice (R303): the device that it travels to, whether it has moved to VC1 (R296), and what it says. -/
structure Notice where
  dst : BitVec 14
  vc1 : Bool
  dev : BitVec 14
  part : Fin 32
  lidx : Nat
  unit : Nat
  code : Code
  deriving DecidableEq, Repr

/-- A failure notice as it comes in on a link. -/
structure NoticeArrival where
  link : Fin 48
  notice : Notice
  deriving DecidableEq, Repr

/-- A mesh flit resent to a tile (R386): the partition that sent the packet, whether it passes its charged
time, and the link of the receiving router that it came over. -/
structure MeshResend where
  part : Option (Fin 32)
  late : Bool
  link : Fin 4
  deriving DecidableEq, Repr

/-- What resets a PCIe port (R312). -/
inductive PcieReset where
  | conventional | hot | linkDown | flrPf0
  | flrVf (k : Fin 33)
  deriving DecidableEq, Repr

/-- A host access through a BAR2 window (R316, R319). -/
inductive BarOp where
  | read (len : Nat)
  | write (data : List Byte)
  deriving DecidableEq, Repr

/-- A host access to device memory: port, function (`0` PF0, `k` VF k), window offset. -/
structure BarAccess where
  port : Bool
  vf : Fin 33
  off : Nat
  op : BarOp
  deriving DecidableEq, Repr

/-- A lane that a ridge receiver marks bad (R340): direction (`true` peak to saddle), lane, and whether an
uncorrectable frame was the cause. -/
structure RidgeBad where
  toSaddle : Bool
  lane : Fin 68
  uncorrectable : Bool
  deriving DecidableEq, Repr

/-- Lanes of one module that fail the test of bring-up step 5 beyond the fused ones, in each direction (R339, R363). -/
structure RidgeFinding where
  m : Fin 128
  badPS : List (Fin 68)
  badSP : List (Fin 68)
  deriving DecidableEq, Repr

/-- What the self-test finds in one physical tile (R366, R367): bad data columns and reduction rows, the spare row, the
check column, weak slice rows (bank and row), any other fault. -/
structure TileFinding where
  tile : Fin 544
  badCols : List (Fin 128)
  badRows : List (Fin 128)
  spareRowBad : Bool
  checkColBad : Bool
  weakRows : List (Fin 64 × Fin 4096)
  otherFault : Bool
  deriving DecidableEq, Repr

/-- What the silicon shows a bring-up step (R355 to R370): lanes that fail (unlisted modules have none), stacks that fail
training, margins of the swept stacks, banks that the march finds bad (stack, channel, bank; bank 48 or 32 is the spare),
faulty 4 KiB granules of banks that are not retired (stack, granule), tile findings (unlisted tiles are good). -/
structure BupFindings where
  ridge : List RidgeFinding
  failedStacks : BitVec 8
  margins : List (Fin 8 × List Margin)
  marchBad : List (Fin 8 × Fin 32 × Fin 49)
  badGranules : List (Fin 8 × Nat)
  tiles : List TileFinding
  deriving DecidableEq, Repr

/-- The scope of a reset (R377). -/
inductive ResetScope where
  | tile (t : Fin 512)
  | cluster (c : Fin 32)
  | part (p : Fin 32)
  | device
  deriving DecidableEq, Repr

/-- What a housekeeping round samples (R417): sensor readings in units of 0.25 °C (`none`: no conversion; a sensor that is
not listed reads as in the last round), the lowest monitor reading of each rail in mV, the I3C inlet temperature in units
of 0.0625 °C and flow in 0.1 L/min (`none`: no answer), the modelled package power in W, and how many clusters and grotto
stacks exceed their plan (R412). -/
structure Round where
  sensors : List (Fin 1352 × Option Int)
  rails : List (Fin 8 × Nat)
  inlet : Option Int
  flow : Option Nat
  power : Nat
  planExceeded : Nat
  deriving DecidableEq, Repr

/-- One rail's PMBus answers (R404); `none` status: no answer. -/
structure PmbusReading where
  rail : Fin 8
  iout : BitVec 16
  status : Option (BitVec 16)
  fault : Bool
  deriving DecidableEq, Repr

/-- What the clock monitor finds (R387). -/
structure ClockFindings where
  clusters : BitVec 32
  saddle : Bool
  glow : Bool
  deriving DecidableEq, Repr

/-- Why the saddle controller stops on a fault (R388). -/
inductive ScCause where
  | residue | memory
  deriving DecidableEq, Repr

/-- SPDM and DOE requests (R439). -/
inductive SpdmRequest where
  | discovery | getVersion | getCapabilities | negotiateAlgorithms | getDigests
  | getCertificate (slot : Nat)
  | challenge (slot : Nat)
  | keyExchange | finish (session : Nat) | heartbeat (session : Nat) | keyUpdate (session : Nat)
  | endSession (session : Nat) | chunk
  | pskExchange | mutualAuth | setCertificate | getCsr | encapsulated
  | other
  deriving DecidableEq, Repr

/-- An IDE key (R441): stream 0 is the link stream, 1 to 4 the selective ones; key set 0 or 1; direction and
sub-stream. -/
structure IdeKey where
  stream : Nat
  keySet : Bool
  tx : Bool
  sub : Nat
  key : BitVec 256
  deriving DecidableEq, Repr

/-- The key set that a K_SET message names. -/
structure IdeSet where
  stream : Nat
  keySet : Bool
  tx : Bool
  sub : Nat
  deriving DecidableEq, Repr

/-- What the debug port does when unlocked (R445). -/
inductive DebugAccess where
  | readRegister (off bits : Nat)
  | readTrace
  | haltSaddle | stepSaddle
  | haltCore (t : Fin 512) (core : Bool)
  | stepCore (t : Fin 512) (core : Bool)
  | readMemory (addr len : Nat)
  | writeMemory (addr : Nat) (data : List Byte)
  deriving DecidableEq, Repr

/-- What the cairn finds as a record falls due (R446 to R448): the energy of each rail since the last record in mJ, and
whether its calibration fuses pass their CRC. -/
structure CairnInterval where
  raile : List Nat
  calOk : Bool
  deriving DecidableEq, Repr

/-- The commands: one constructor per row of spec/opcode_table.json, in its order. -/
inductive Instr where
  /-- ADD (R119). -/
  | add (u : Agent) (f : FmtA)
  /-- SUB (R119). -/
  | sub (u : Agent) (f : FmtA)
  /-- AND (R119). -/
  | and (u : Agent) (f : FmtA)
  /-- OR (R119). -/
  | or (u : Agent) (f : FmtA)
  /-- XOR (R119). -/
  | xor (u : Agent) (f : FmtA)
  /-- SLL (R119). -/
  | sll (u : Agent) (f : FmtA)
  /-- SRL (R119). -/
  | srl (u : Agent) (f : FmtA)
  /-- SRA (R119). -/
  | sra (u : Agent) (f : FmtA)
  /-- MIN (R119). -/
  | min (u : Agent) (f : FmtA)
  /-- MINU (R119). -/
  | minu (u : Agent) (f : FmtA)
  /-- MAX (R119). -/
  | max (u : Agent) (f : FmtA)
  /-- MAXU (R119). -/
  | maxu (u : Agent) (f : FmtA)
  /-- CMPEQ (R119). -/
  | cmpeq (u : Agent) (f : FmtA)
  /-- CMPLT (R119). -/
  | cmplt (u : Agent) (f : FmtA)
  /-- CMPLTU (R119). -/
  | cmpltu (u : Agent) (f : FmtA)
  /-- MUL (R119). -/
  | mul (u : Agent) (f : FmtA)
  /-- MULH (R119). -/
  | mulh (u : Agent) (f : FmtA)
  /-- MULHU (R119). -/
  | mulhu (u : Agent) (f : FmtA)
  /-- CLZ (R119). -/
  | clz (u : Agent) (f : FmtA)
  /-- POPC (R119). -/
  | popc (u : Agent) (f : FmtA)
  /-- ADDI (R119). -/
  | addi (u : Agent) (f : FmtI)
  /-- ANDI (R119). -/
  | andi (u : Agent) (f : FmtI)
  /-- ORI (R119). -/
  | ori (u : Agent) (f : FmtI)
  /-- XORI (R119). -/
  | xori (u : Agent) (f : FmtI)
  /-- SHI (R119). -/
  | shi (u : Agent) (f : FmtI)
  /-- MOVZ (R119). -/
  | movz (u : Agent) (f : FmtI)
  /-- MOVK (R119). -/
  | movk (u : Agent) (f : FmtI)
  /-- BEQ (R120). -/
  | beq (u : Agent) (f : FmtB)
  /-- BNE (R120). -/
  | bne (u : Agent) (f : FmtB)
  /-- BLT (R120). -/
  | blt (u : Agent) (f : FmtB)
  /-- BGE (R120). -/
  | bge (u : Agent) (f : FmtB)
  /-- BLTU (R120). -/
  | bltu (u : Agent) (f : FmtB)
  /-- BGEU (R120). -/
  | bgeu (u : Agent) (f : FmtB)
  /-- JAL (R120). -/
  | jal (u : Agent) (f : FmtJ)
  /-- JALR (R120). -/
  | jalr (u : Agent) (f : FmtI)
  /-- LD (R121). -/
  | ld (u : Agent) (f : FmtM)
  /-- LDS (R121). -/
  | lds (u : Agent) (f : FmtM)
  /-- ST (R122). -/
  | st (u : Agent) (f : FmtM)
  /-- VLD (R121). -/
  | vld (u : Agent) (f : FmtMV)
  /-- VST (R122). -/
  | vst (u : Agent) (f : FmtMV)
  /-- VADD (R124). -/
  | vadd (u : Agent) (f : FmtV)
  /-- VSUB (R124). -/
  | vsub (u : Agent) (f : FmtV)
  /-- VMUL (R124). -/
  | vmul (u : Agent) (f : FmtV)
  /-- VFMA (R124). -/
  | vfma (u : Agent) (f : FmtV)
  /-- VMAX (R124). -/
  | vmax (u : Agent) (f : FmtV)
  /-- VMIN (R124). -/
  | vmin (u : Agent) (f : FmtV)
  /-- VAND (R124). -/
  | vand (u : Agent) (f : FmtV)
  /-- VOR (R124). -/
  | vor (u : Agent) (f : FmtV)
  /-- VXOR (R124). -/
  | vxor (u : Agent) (f : FmtV)
  /-- VSLL (R124). -/
  | vsll (u : Agent) (f : FmtV)
  /-- VSRA (R124). -/
  | vsra (u : Agent) (f : FmtV)
  /-- VCMPEQ (R125). -/
  | vcmpeq (u : Agent) (f : FmtV)
  /-- VCMPLT (R125). -/
  | vcmplt (u : Agent) (f : FmtV)
  /-- VCMPLE (R125). -/
  | vcmple (u : Agent) (f : FmtV)
  /-- VSEL (R124). -/
  | vsel (u : Agent) (f : FmtV)
  /-- VBCAST (R124). -/
  | vbcast (u : Agent) (f : FmtV)
  /-- VEXTR (R124). -/
  | vextr (u : Agent) (f : FmtV)
  /-- VINS (R124). -/
  | vins (u : Agent) (f : FmtV)
  /-- VPERM (R124). -/
  | vperm (u : Agent) (f : FmtV)
  /-- VMOVP (R124). -/
  | vmovp (u : Agent) (f : FmtV)
  /-- VMOVG (R124). -/
  | vmovg (u : Agent) (f : FmtV)
  /-- VABS (R124). -/
  | vabs (u : Agent) (f : FmtV)
  /-- VNEG (R124). -/
  | vneg (u : Agent) (f : FmtV)
  /-- VGETEXP (R124). -/
  | vgetexp (u : Agent) (f : FmtV)
  /-- VSCALE (R124). -/
  | vscale (u : Agent) (f : FmtV)
  /-- VMOV (R124). -/
  | vmov (u : Agent) (f : FmtV)
  /-- VCVT (R126). -/
  | vcvt (u : Agent) (f : FmtV)
  /-- EXP2 (R127). -/
  | exp2 (u : Agent) (f : FmtV)
  /-- RCP (R127). -/
  | rcp (u : Agent) (f : FmtV)
  /-- RSQRT (R127). -/
  | rsqrt (u : Agent) (f : FmtV)
  /-- VRED_SUM (R128). -/
  | vredSum (u : Agent) (f : FmtV)
  /-- VRED_MAX (R128). -/
  | vredMax (u : Agent) (f : FmtV)
  /-- VRED_MIN (R128). -/
  | vredMin (u : Agent) (f : FmtV)
  /-- VRED_AMAX (R128). -/
  | vredAmax (u : Agent) (f : FmtV)
  /-- VDOT (R129). -/
  | vdot (u : Agent) (f : FmtV)
  /-- CADD (R133). -/
  | cadd (u : Agent) (f : FmtQ)
  /-- CWAIT (R131). -/
  | cwait (u : Agent) (f : FmtQ)
  /-- CRD (R132). -/
  | crd (u : Agent) (f : FmtQ)
  /-- CRDF (R132). -/
  | crdf (u : Agent) (f : FmtQ)
  /-- CRDH (R161). -/
  | crdh (u : Agent) (f : FmtQ)
  /-- CSIGL (R132). -/
  | csigl (u : Agent) (f : FmtI)
  /-- CWAITL (R131). -/
  | cwaitl (u : Agent) (f : FmtI)
  /-- CGBEGIN (R134). -/
  | cgbegin (u : Agent) (f : FmtQ)
  /-- CGCOMMIT (R138). -/
  | cgcommit (u : Agent) (f : FmtQ)
  /-- CGABORT (R142). -/
  | cgabort (u : Agent) (f : FmtQ)
  /-- CGSTAT (R142). -/
  | cgstat (u : Agent) (f : FmtQ)
  /-- TPIN (R144). -/
  | tpin (u : Agent) (f : FmtQ)
  /-- TWR (R145). -/
  | twr (u : Agent) (f : FmtQ)
  /-- KVAPP (R146). -/
  | kvapp (u : Agent) (f : FmtQ)
  /-- QPUSH (R89). -/
  | qpush (u : Agent) (f : FmtQ)
  /-- QPUSHN (R89). -/
  | qpushn (u : Agent) (f : FmtQ)
  /-- QFLUSH (R94). -/
  | qflush (u : Agent) (f : FmtQ)
  /-- QSTAT (R147). -/
  | qstat (u : Agent) (f : FmtQ)
  /-- NOP (R117). -/
  | nop (u : Agent) (f : FmtA)
  /-- END (R143). -/
  | endProg (u : Agent) (f : FmtA)
  /-- RDSTEP (R478). -/
  | rdstep (u : Agent) (f : FmtA)
  /-- RDCYC (R478). -/
  | rdcyc (u : Agent) (f : FmtA)
  /-- RDID (R75). -/
  | rdid (u : Agent) (f : FmtA)
  /-- QUEUE_HEAD (R148). -/
  | queueHead (t : Fin 512) (q : Fin 3)
  /-- MXLOAD (R37). -/
  | mxload (t : Fin 512)
  /-- MXLOAD_DONE (R37). -/
  | mxloadDone (t : Fin 512)
  /-- MXMUL (R38). -/
  | mxmul (t : Fin 512)
  /-- MXMUL_DONE (R55). -/
  | mxmulDone (t : Fin 512)
  /-- MXDRAIN (R42). -/
  | mxdrain (t : Fin 512)
  /-- MXDRAIN_DONE (R42). -/
  | mxdrainDone (t : Fin 512)
  /-- MXKAT (R69). -/
  | mxkat (t : Fin 512)
  /-- MXKAT_DONE (R69). -/
  | mxkatDone (t : Fin 512)
  /-- MVCOPY (R155). -/
  | mvcopy (t : Fin 512)
  /-- MVCOPY_DONE (R157). -/
  | mvcopyDone (t : Fin 512) (i : Nat)
  /-- MVTRAN (R156). -/
  | mvtran (t : Fin 512)
  /-- MVTRAN_DONE (R157). -/
  | mvtranDone (t : Fin 512) (i : Nat)
  /-- FSEND (R299). -/
  | fsend (t : Fin 512)
  /-- FSEND_DONE (R300). -/
  | fsendDone (t : Fin 512)
  /-- SIGNAL_CLAUSE (R92). -/
  | signalClause (t : Fin 512) (q : Fin 3)
  /-- COUNTER_ADD (R167). -/
  | counterAdd (c : Cnt)
  /-- CONTEXT_WAKE (R82). -/
  | contextWake (t : Fin 512) (w : Waiter)
  /-- SADDLE_WAKE (R172). -/
  | saddleWake (t : Fin 512) (w : Waiter)
  /-- QUEUE_SLOT_READY (R83). -/
  | queueSlotReady (t : Fin 512) (n : Fin 8)
  /-- ACC_BANK_READY (R83). -/
  | accBankReady (t : Fin 512) (n : Fin 8)
  /-- COMMIT_POINT (R138). -/
  | commitPoint (t : Fin 512)
  /-- COMMIT_DONE (R138). -/
  | commitDone (t : Fin 512)
  /-- TPIN_DONE (R144). -/
  | tpinDone (t : Fin 512)
  /-- WALK_DONE (R265). -/
  | walkDone (i : Nat)
  /-- XLTINV (R268). -/
  | xltinv (a : Acc) (p : Fin 32) (v : Word)
  /-- XLTINV_DONE (R268). -/
  | xltinvDone (p : Fin 32)
  /-- LOAD (R113). -/
  | loadTrv (a : Acc) (p : Fin 32) (v : Word)
  /-- LOAD_DONE (R113). -/
  | loadDone (p : Fin 32)
  /-- RUN (R115). -/
  | runTrv (a : Acc) (p : Fin 32) (v : Word)
  /-- STOP (R115). -/
  | stopTrv (a : Acc) (p : Fin 32) (v : Word)
  /-- STOP_DONE (R115). -/
  | stopDone (p : Fin 32)
  /-- UNLOAD (R332). -/
  | unloadTrv (a : Acc) (p : Fin 32) (v : Word)
  /-- PART_RUNEPOCH (R192). -/
  | partRunEpoch (a : Acc) (p : Fin 32) (v : Word)
  /-- STEP_START (R179). -/
  | stepStart (p : Fin 32)
  /-- STEP_END (R330). -/
  | stepEnd (p : Fin 32)
  /-- TRAVERSE_END (R115). -/
  | traverseEnd (p : Fin 32)
  /-- DEADLINE_CHECK (R182). -/
  | deadlineCheck (p : Fin 32) (i : Nat)
  /-- EPOCH_MARK (R188); `up`: the mark's offset, where it is no whole number of FCLK cycles, is rounded up. -/
  | epochMark (up : Bool)
  /-- DIAGNOSIS_DONE (R68). -/
  | diagnosisDone (h : Fin 544) (r : DiagFinding)
  /-- DIAG (R68). -/
  | diag (a : Acc) (h : Fin 544) (v : Word)
  /-- KAT_OVERDUE (R70). -/
  | katOverdue (h : Fin 544)
  /-- CTX_RESTART (R87). -/
  | ctxRestart (a : Acc) (h : Fin 544) (v : Word)
  /-- FLUSH (R94). -/
  | flush (a : Acc) (h : Fin 544) (v : Word)
  /-- SLICE_REFRESH_SLOT (R198). -/
  | sliceRefreshSlot (h : Fin 544)
  /-- STACK_REQUEST (R212). -/
  | stackRequest (r : StackReq)
  /-- STACK_ACCESS_DONE (R213). -/
  | stackAccessDone (i : Nat)
  /-- STACK_REFRESH (R217). -/
  | stackRefresh (s : Fin 8) (channel bank : Nat)
  /-- FILL_DONE (R225). -/
  | fillDone (f : FillTarget)
  /-- SL_SCRUB_START (R232). -/
  | slScrubStart (a : Acc) (h : Fin 544) (v : Word)
  /-- SL_SCRUB_STOP (R232). -/
  | slScrubStop (a : Acc) (h : Fin 544) (v : Word)
  /-- MEMC_SCRUB_START (R232). -/
  | memcScrubStart (a : Acc) (s : Fin 8) (v : Word)
  /-- MEMC_SCRUB_STOP (R232). -/
  | memcScrubStop (a : Acc) (s : Fin 8) (v : Word)
  /-- SCRUB_PASS_DONE (R232). -/
  | scrubPassDone (x : ScrubTarget)
  /-- SCRUB_PERIOD (R232). -/
  | scrubPeriod (x : ScrubTarget)
  /-- SL_ROWRET (R234). -/
  | slRowret (a : Acc) (h : Fin 544) (v : Word)
  /-- SL_ROWRET_DONE (R234). -/
  | slRowretDone (h : Fin 544)
  /-- BANKRET (R235). -/
  | bankret (a : Acc) (s : Fin 8) (v : Word)
  /-- BANKRET_DONE (R235). -/
  | bankretDone (s : Fin 8)
  /-- TILE_INJ_ARM (R229). -/
  | tileInjArm (a : Acc) (h : Fin 544) (v : Word)
  /-- TILE_INJ_RAWRD (R229). -/
  | tileInjRawrd (a : Acc) (h : Fin 544) (v : Word)
  /-- MEMC_INJ_ARM (R229). -/
  | memcInjArm (a : Acc) (s : Fin 8) (v : Word)
  /-- MEMC_INJ_RAWRD (R229). -/
  | memcInjRawrd (a : Acc) (s : Fin 8) (v : Word)
  /-- MARGIN_START (R237). -/
  | marginStart (a : Acc) (s : Fin 8) (v : Word)
  /-- MARGIN_DONE (R238). -/
  | marginDone (s : Fin 8) (m : List Margin)
  /-- DRIP_LEAK (R230). -/
  | dripLeak (d : DripDomain)
  /-- SLCLR (R231). -/
  | slclr (a : Acc) (h : Fin 544) (v : Word)
  /-- TSCLR (R231). -/
  | tsclr (a : Acc) (h : Fin 544) (v : Word)
  /-- MEMC_DRIP_CLR (R231). -/
  | memcDripClr (a : Acc) (s : Fin 8) (c : Fin 32) (v : Word)
  /-- GRT_CDRIP_CLR (R231). -/
  | grtCdripClr (a : Acc) (k : Fin 512) (v : Word)
  /-- DRIPCFG_WRITE (R231). -/
  | dripcfgWrite (a : Acc) (b : DripBlock) (v : Word)
  /-- GROTTO_LAUNCH (R243). -/
  | grottoLaunch (k : Fin 512)
  /-- GROTTO_WAKE (R178). -/
  | grottoWake (k : Fin 512)
  /-- LAUNCH (R259). -/
  | launch (a : Acc) (k : Fin 512) (v : Word)
  /-- GRT_RESTART (R246). -/
  | grtRestart (a : Acc) (k : Fin 512) (v : Word)
  /-- GRT_MODE (R249). -/
  | grtMode (a : Acc) (s : Fin 4) (v : Word)
  /-- PEAKCLR (R249). -/
  | peakclr (a : Acc) (s : Fin 4) (v : Word)
  /-- GROTTO_REFRESH_DUE (R250). -/
  | grottoRefreshDue (k : Fin 512)
  /-- GROTTO_PAUSE (R251). -/
  | grottoPause (k : Fin 512)
  /-- GROTTO_REFRESH_OP_DONE (R250). -/
  | grottoRefreshOpDone (k : Fin 512)
  /-- ORDINARY_ACCESS_SERVICE (R254). -/
  | ordinaryAccessService (k : Fin 512)
  /-- SCRUB_WAIT_EXPIRY (R257). -/
  | scrubWaitExpiry (k : Fin 512)
  /-- LINK_EN (R289). -/
  | linkEn (a : Acc) (l : Fin 48) (v : Word)
  /-- LINK_UP (R289). -/
  | linkUp (l : Fin 48) (r : LinkTraining)
  /-- RETRAIN (R289). -/
  | retrain (a : Acc) (l : Fin 48) (v : Word)
  /-- RELOCK (R294). -/
  | relock (a : Acc) (l : Fin 48) (v : Word)
  /-- FRAME_RECEIVE (R291). -/
  | frameReceive (l : Fin 48) (f : Frame)
  /-- REPLAY (R291). -/
  | replay (l : Fin 48)
  /-- LANE_FAIL (R292). -/
  | laneFail (l : Fin 48) (lanes : BitVec 4)
  /-- LINK_REALIGNED (R292). -/
  | linkRealigned (l : Fin 48) (peerWidth : Nat)
  /-- ECHO (R293). -/
  | echo (l : Fin 48) (e : EchoData)
  /-- TIME_HOLDOVER (R308). -/
  | timeHoldover
  /-- PTM_REQUEST (R305). -/
  | ptmRequest (master : Option PtmReply)
  /-- PPS_IN_EDGE (R310). -/
  | ppsInEdge
  /-- PPS_OUT_EDGE (R310). -/
  | ppsOutEdge
  /-- TIME_SET (R305). -/
  | timeSet (a : Acc) (v : Word)
  /-- TIME_E0 (R309). -/
  | timeE0 (a : Acc) (v : Word)
  /-- FABRIC_ARRIVAL (R297). -/
  | fabricArrival (l : Fin 48) (x : FabHeader) (data : List Byte)
  /-- SCHEDULED_DELIVERY (R301). -/
  | scheduledDelivery (l : Fin 48)
  /-- FAILURE_NOTICE (R303). -/
  | failureNotice (x : NoticeArrival)
  /-- MESH_RESEND (R386). -/
  | meshResend (h : Fin 544) (m : MeshResend)
  /-- HVC_ADD (R174). -/
  | hvcAdd (a : Acc) (g : Fin 64) (i : Fin 64) (v : Word)
  /-- COMPLETION_WRITE (R331). -/
  | completionWrite (p : Fin 32) (q : Fin 16)
  /-- HBEAT (R322). -/
  | hbeat (a : Acc) (v : Word)
  /-- STEWARD_LAPSED (R322). -/
  | stewardLapsed
  /-- CLAIM (R323). -/
  | claim (a : Acc) (v : Word)
  /-- FENCE_END (R323). -/
  | fenceEnd
  /-- DEVICE_COMMIT (R325). -/
  | deviceCommit (a : Acc) (v : Word)
  /-- DEVICE_COMMIT_DONE (R325). -/
  | deviceCommitDone
  /-- PCOMMIT_DISCARD (R327). -/
  | pcommitDiscard (a : Acc) (v : Word)
  /-- PART_COMMIT (R326). -/
  | partCommit (a : Acc) (p : Fin 32) (v : Word)
  /-- PART_COMMIT_DONE (R327). -/
  | partCommitDone (p : Fin 32)
  /-- PART_DISCARD (R327). -/
  | partDiscard (a : Acc) (p : Fin 32) (v : Word)
  /-- PCIE_RESET (R312). -/
  | pcieReset (port : Bool) (k : PcieReset)
  /-- PCIE_LINK_UP (R312). -/
  | pcieLinkUp (port : Bool)
  /-- HOST_BAR_ACCESS (R320). -/
  | hostBarAccess (x : BarAccess)
  /-- REGISTER_WRITE (R474). -/
  | registerWrite (x : RegAccess) (v : Word)
  /-- RIDGE_LANE_BAD (R340). -/
  | ridgeLaneBad (m : Fin 128) (b : RidgeBad)
  /-- RIDGE_RETRAINED (R340). -/
  | ridgeRetrained (m : Fin 128)
  /-- RIDGE_HANDSHAKE (R341). -/
  | ridgeHandshake (m : Fin 128)
  /-- RSTSIDE (R341). -/
  | rstside (a : Acc) (m : Fin 128) (v : Word)
  /-- RIDGE_RETEST_DONE (R341). -/
  | ridgeRetestDone (m : Fin 128) (peakSide : Bool) (bad : List Nat)
  /-- GUEST_RD (R346). -/
  | guestRd (addr len : Nat)
  /-- GUEST_WR (R346). -/
  | guestWr (addr : Nat) (data : List Byte)
  /-- GUEST_CADD (R347). -/
  | guestCadd (c : BitVec 20) (amount : W32)
  /-- GUEST_CRD (R347). -/
  | guestCrd (c : BitVec 20)
  /-- GUEST_LINK_DOWN (R351). -/
  | guestLinkDown
  /-- GRESET (R351). -/
  | greset (a : Acc) (v : Word)
  /-- GST_COMMIT (R352). -/
  | gstCommit (a : Acc) (v : Word)
  /-- GST_DISCARD (R352). -/
  | gstDiscard (a : Acc) (v : Word)
  /-- VGLOW_UP (R406). -/
  | vglowUp (strap : Bool) (fusesOk : Bool)
  /-- RAIL_IN_REGULATION (R406). -/
  | railInRegulation (r : Fin 8)
  /-- RAIL_SEQ_FAIL (R406). -/
  | railSeqFail (r : Fin 8)
  /-- RAIL_SEQ_RETRY (R406). -/
  | railSeqRetry
  /-- BUP_GO (R354). -/
  | bupGo (a : Acc) (v : Word)
  /-- BUP_SKIP (R356). -/
  | bupSkip (a : Acc) (v : Word)
  /-- BUP_STEP_DONE (R355). -/
  | bupStepDone (elapsedMs : Nat) (r : BupFindings)
  /-- SAVE (R362). -/
  | saveRecord (a : Acc) (v : Word)
  /-- ROW_SHIFT_REPAIR (R371). -/
  | rowShiftRepair (h : Fin 544) (countersReadable : Bool)
  /-- TILE_MIGRATE_DONE (R372). -/
  | tileMigrateDone (c : Fin 32)
  /-- REFILL_DONE (R374). -/
  | refillDone (c : Fin 32)
  /-- REPAIR_COMPLETE (R373). -/
  | repairComplete (c : Fin 32)
  /-- TILE_RESET (R377). -/
  | tileReset (a : Acc) (v : Word)
  /-- CLUSTER_RESET (R377). -/
  | clusterReset (a : Acc) (v : Word)
  /-- DEVICE_RESET (R377). -/
  | deviceReset (a : Acc) (v : Word)
  /-- PART_RESET (R377). -/
  | partReset (a : Acc) (p : Fin 32) (v : Word)
  /-- RESET_DONE (R379). -/
  | resetDone (r : ResetScope)
  /-- SUPPLY_DROOP (R407). -/
  | supplyDroop (m : Fin 201) (mv : Nat)
  /-- SUPPLY_DIP (R408). -/
  | supplyDip (m : Fin 201)
  /-- SUPPLY_RECOVER (R409). -/
  | supplyRecover (m : Fin 201) (lowest durationNs : Nat)
  /-- SUPPLY_SUSTAINED (R409). -/
  | supplySustained (m : Fin 201) (lowest : Nat)
  /-- SUPPLY_RESET (R410). -/
  | supplyReset (m : Fin 201) (lowest : Nat)
  /-- HOUSEKEEPING_ROUND (R417). -/
  | housekeepingRound (r : Round)
  /-- PMBUS_POLL (R404). -/
  | pmbusPoll (r : List PmbusReading)
  /-- AVSBUS_COMPLETION (R405). -/
  | avsbusCompletion (r : Fin 8)
  /-- GRACE_EXPIRY (R421). -/
  | graceExpiry
  /-- ACK (R422). -/
  | ack (a : Acc) (v : Word)
  /-- COOLANT_WRITE (R427). -/
  | coolantWrite (a : Acc) (v : Word)
  /-- COOLANT_STALE (R427). -/
  | coolantStale
  /-- I3C_ZERO_FLOW (R429). -/
  | i3cZeroFlow
  /-- PLL_ON (R414). -/
  | pllOn (a : Acc) (v : Word)
  /-- PLL_LOCKED (R414). -/
  | pllLocked (c : Fin 32)
  /-- CLOCK_MONITOR (R387). -/
  | clockMonitor (f : ClockFindings)
  /-- SC_FAULT (R388). -/
  | scFault (c : ScCause)
  /-- SC_WATCHDOG (R388). -/
  | scWatchdog
  /-- SC_RESTART (R390). -/
  | scRestart (a : Acc) (v : Word)
  /-- LOG_TAKE (R396). -/
  | logTake
  /-- RDSEQ_WRITE (R398). -/
  | rdseqWrite (a : Acc) (v : Word)
  /-- LOG_CLR (R396). -/
  | logClr (a : Acc) (v : Word)
  /-- HANDOVER_GO (R433). -/
  | handoverGo (a : Acc) (v : Word)
  /-- HANDOVER_ABORT (R433). -/
  | handoverAbort (a : Acc) (v : Word)
  /-- HANDOVER_LOADED (R431). -/
  | handoverLoaded
  /-- QUIESCENT_POINT (R435). -/
  | quiescentPoint
  /-- QUIESCENCE_TIMEOUT (R434). -/
  | quiescenceTimeout
  /-- PROBATION_END (R435). -/
  | probationEnd
  /-- SVNGO (R437). -/
  | svngo (a : Acc) (v : Word)
  /-- REVGO (R437). -/
  | revgo (a : Acc) (v : Word)
  /-- SPDM_REQUEST (R439). -/
  | spdmRequest (port : Bool) (r : SpdmRequest)
  /-- GET_MEASUREMENTS (R440). -/
  | getMeasurements (port : Bool) (index : Nat)
  /-- QUERY (R441). -/
  | ideQuery (port : Bool) (session : Nat)
  /-- KEY_PROG (R441). -/
  | keyProg (port : Bool) (session : Nat) (x : IdeKey)
  /-- K_SET_GO (R441). -/
  | kSetGo (port : Bool) (session : Nat) (x : IdeSet)
  /-- K_SET_STOP (R441). -/
  | kSetStop (port : Bool) (session : Nat) (x : IdeSet)
  /-- IDE_INTEGRITY (R442). -/
  | ideIntegrity (port : Bool) (stream : Nat)
  /-- IDCODE (R443). -/
  | idcode
  /-- BYPASS (R443). -/
  | bypass
  /-- SAMPLE_PRELOAD (R443). -/
  | samplePreload (pins : List Bool)
  /-- EXTEST (R443). -/
  | extest
  /-- CHALLENGE (R444). -/
  | challenge (level : Nat)
  /-- UNLOCK (R444). -/
  | unlock (key signature : List Byte)
  /-- CHALLENGE_LOCKOUT_END (R444). -/
  | challengeLockoutEnd
  /-- DEBUG_RELOCK (R445). -/
  | debugRelock (a : Acc) (v : Word)
  /-- CAIRN_POWERUP (R447). -/
  | cairnPowerup (romOk calOk : Bool)
  /-- CAIRN_RECORD (R447). -/
  | cairnRecord (x : CairnInterval)
  /-- CAIRN_ROM_CHECK (R448). -/
  | cairnRomCheck (ok : Bool)
  /-- CAIRN_POWER_FAIL (R449). -/
  | cairnPowerFail
  /-- CAIRN_DIP_DETECT (R453). -/
  | cairnDipDetect (rail : Fin 9) (data : BitVec 128)
  /-- IDENT (R452). -/
  | ident
  /-- RECALL (R452). -/
  | recall (seq : W32)
  /-- EVENT (R453). -/
  | readerEvent (number : W32)
  /-- CAIRN_FRAME_RECEIVE (R450). -/
  | cairnFrameReceive (payload : List Byte) (crcOk : Bool)
  /-- CAIRN_SILENT (R451). -/
  | cairnSilent
  /-- VGLOW_LOSS (R304). -/
  | vglowLoss
  /-- RAIL_WARNING (R411). -/
  | railWarning (m : Fin 201) (lowest durationNs : Nat)
  /-- GUEST_LINK_ACTIVE (R343). -/
  | guestLinkActive (speed width : Nat)
  /-- GUEST_OTHER_MESSAGE (R344). -/
  | guestOtherMessage (isRead : Bool)
  /-- TIME_NOW_READ (R304). -/
  | timeNowRead (port : Bool)
  /-- SCBEAT_ADVANCE (R388). -/
  | scbeatAdvance
  /-- DEBUG_PORT_ACCESS (R445). -/
  | debugPortAccess (x : DebugAccess)
  /-- READER_UNKNOWN_TYPE (R452). -/
  | readerUnknownType (type : Byte) (lenWrong : Bool)
  /-- CURRENT_BEYOND_SENSOR_RANGE (R453). -/
  | currentBeyondSensorRange (rail : Fin 9) (data : BitVec 128)
  /-- CAIRN_SENSOR_FAULT (R453). -/
  | cairnSensorFault (data : BitVec 128)
  /-- TEST_N_RELEASE (R459). -/
  | testNRelease
  deriving DecidableEq, Repr

end Sys2Proof
end

