-- ==== Sys2Proof/Decode.lean ====
section
/-! DEFINITION. The words of commands.  The opcode table gives its rows no bits, so no table word spells a
command (log entry 1).  The 32-bit words of Alori instructions (R116, R117, Tables ALR-1a to ALR-13) are decoded
and encoded here beside it: what a unit fetches as a word, the command rows carry as fields. -/
namespace Sys2Proof

/-- The command that a word spells by the table's bits: the table gives no row bits. -/
def decodeTableWord (_nbits _w : Nat) : Option Instr := none

/-- Bits `hi:lo` of an instruction word. -/
abbrev fieldOf (w : BitVec 32) (hi lo : Nat) : BitVec (hi - lo + 1) := w.extractLsb hi lo

/-- The fields of format A (Table ALR-1a). -/
def toA (w : BitVec 32) : FmtA := ⟨fieldOf w 25 21, fieldOf w 20 16, fieldOf w 15 11⟩
/-- The fields of format I (Table ALR-1b). -/
def toI (w : BitVec 32) : FmtI := ⟨fieldOf w 25 21, fieldOf w 20 16, fieldOf w 15 0⟩
/-- The fields of format B (Table ALR-1c). -/
def toB (w : BitVec 32) : FmtB := ⟨fieldOf w 25 21, fieldOf w 20 16, fieldOf w 15 0⟩
/-- The fields of format J (Table ALR-1d). -/
def toJ (w : BitVec 32) : FmtJ := ⟨fieldOf w 25 0⟩
/-- The fields of format M (Table ALR-1e). -/
def toM (w : BitVec 32) : FmtM := ⟨fieldOf w 25 21, fieldOf w 20 16, fieldOf w 15 14, fieldOf w 13 12, fieldOf w 11 0⟩
/-- The fields of format MV (Table ALR-1f). -/
def toMV (w : BitVec 32) : FmtMV := ⟨fieldOf w 25 21, fieldOf w 20 16, fieldOf w 15 14, fieldOf w 13 11, fieldOf w 10 0⟩
/-- The fields of format V (Table ALR-1g). -/
def toV (w : BitVec 32) : FmtV :=
  ⟨fieldOf w 25 21, fieldOf w 20 16, fieldOf w 15 11, fieldOf w 10 8, w.getLsbD 7, fieldOf w 2 0⟩
/-- The fields of format Q (Table ALR-1h). -/
def toQ (w : BitVec 32) : FmtQ := ⟨fieldOf w 25 21, fieldOf w 20 16, fieldOf w 15 11, fieldOf w 10 6⟩

/-- A word of format A. -/
def ofA (op : BitVec 6) (fn : BitVec 11) (f : FmtA) : BitVec 32 := op ++ f.rd ++ f.ra ++ f.rb ++ fn
/-- A word of format I. -/
def ofI (op : BitVec 6) (f : FmtI) : BitVec 32 := op ++ f.rd ++ f.ra ++ f.imm
/-- A word of format B. -/
def ofB (op : BitVec 6) (f : FmtB) : BitVec 32 := op ++ f.ra ++ f.rb ++ f.off
/-- A word of format J. -/
def ofJ (op : BitVec 6) (f : FmtJ) : BitVec 32 := op ++ f.off
/-- A word of format M. -/
def ofM (op : BitVec 6) (f : FmtM) : BitVec 32 := op ++ f.rt ++ f.ra ++ f.sp ++ f.sz ++ f.off
/-- A word of format MV. -/
def ofMV (op : BitVec 6) (f : FmtMV) : BitVec 32 := op ++ f.vt ++ f.ra ++ f.sp ++ f.p ++ f.off
/-- A word of format V. -/
def ofV (op : BitVec 6) (fn : BitVec 4) (f : FmtV) : BitVec 32 :=
  op ++ f.vd ++ f.va ++ f.vb ++ f.pm ++ BitVec.ofBool f.s ++ fn ++ f.t
/-- A word of format Q. -/
def ofQ (op : BitVec 6) (fn : BitVec 6) (f : FmtQ) : BitVec 32 := op ++ f.rd ++ f.ra ++ f.rb ++ f.rc ++ fn

/-- The scalar register operation of an FN (Table ALR-3). -/
def scalarFn (u : Agent) (f : FmtA) : Nat → Option Instr
  | 0x0 => some (.add u f)
  | 0x1 => some (.sub u f)
  | 0x2 => some (.and u f)
  | 0x3 => some (.or u f)
  | 0x4 => some (.xor u f)
  | 0x5 => some (.sll u f)
  | 0x6 => some (.srl u f)
  | 0x7 => some (.sra u f)
  | 0x8 => some (.min u f)
  | 0x9 => some (.minu u f)
  | 0xA => some (.max u f)
  | 0xB => some (.maxu u f)
  | 0x10 => some (.cmpeq u f)
  | 0x11 => some (.cmplt u f)
  | 0x12 => some (.cmpltu u f)
  | 0x20 => some (.mul u f)
  | 0x21 => some (.mulh u f)
  | 0x22 => some (.mulhu u f)
  | 0x30 => some (.clz u f)
  | 0x31 => some (.popc u f)
  | _ => none

/-- The SYS instruction of an FN (Table ALR-13). -/
def sysFn (u : Agent) (f : FmtA) : Nat → Option Instr
  | 0x0 => some (.nop u f)
  | 0x1 => some (.endProg u f)
  | 0x2 => some (.rdstep u f)
  | 0x3 => some (.rdcyc u f)
  | 0x4 => some (.rdid u f)
  | _ => none

/-- The VARITH instruction of an FN (Table ALR-7). -/
def varithFn (u : Agent) (f : FmtV) : Nat → Option Instr
  | 0x0 => some (.vadd u f)
  | 0x1 => some (.vsub u f)
  | 0x2 => some (.vmul u f)
  | 0x3 => some (.vfma u f)
  | 0x4 => some (.vmax u f)
  | 0x5 => some (.vmin u f)
  | 0x6 => some (.vand u f)
  | 0x7 => some (.vor u f)
  | 0x8 => some (.vxor u f)
  | 0x9 => some (.vsll u f)
  | 0xA => some (.vsra u f)
  | 0xB => some (.vcmpeq u f)
  | 0xC => some (.vcmplt u f)
  | 0xD => some (.vcmple u f)
  | _ => none

/-- The VMISC instruction of an FN (Table ALR-8). -/
def vmiscFn (u : Agent) (f : FmtV) : Nat → Option Instr
  | 0x0 => some (.vsel u f)
  | 0x1 => some (.vbcast u f)
  | 0x2 => some (.vextr u f)
  | 0x3 => some (.vins u f)
  | 0x4 => some (.vperm u f)
  | 0x5 => some (.vmovp u f)
  | 0x6 => some (.vmovg u f)
  | 0x7 => some (.vabs u f)
  | 0x8 => some (.vneg u f)
  | 0x9 => some (.vgetexp u f)
  | 0xA => some (.vscale u f)
  | 0xB => some (.vmov u f)
  | _ => none

/-- VCVT, whose FN field is 0 (R126). -/
def vcvtFn (u : Agent) (f : FmtV) : Nat → Option Instr
  | 0x0 => some (.vcvt u f)
  | _ => none

/-- The VSPEC instruction of an FN (R127). -/
def vspecFn (u : Agent) (f : FmtV) : Nat → Option Instr
  | 0x0 => some (.exp2 u f)
  | 0x1 => some (.rcp u f)
  | 0x2 => some (.rsqrt u f)
  | _ => none

/-- The VRED instruction of an FN (R128). -/
def vredFn (u : Agent) (f : FmtV) : Nat → Option Instr
  | 0x0 => some (.vredSum u f)
  | 0x1 => some (.vredMax u f)
  | 0x2 => some (.vredMin u f)
  | 0x3 => some (.vredAmax u f)
  | _ => none

/-- VDOT, whose FN field is 0 (R129). -/
def vdotFn (u : Agent) (f : FmtV) : Nat → Option Instr
  | 0x0 => some (.vdot u f)
  | _ => none

/-- The CNT instruction of an FN (Table ALR-9). -/
def cntFn (u : Agent) (f : FmtQ) : Nat → Option Instr
  | 0x0 => some (.cadd u f)
  | 0x1 => some (.cwait u f)
  | 0x2 => some (.crd u f)
  | 0x3 => some (.crdf u f)
  | 0x4 => some (.crdh u f)
  | _ => none

/-- The CG instruction of an FN (Table ALR-10). -/
def cgFn (u : Agent) (f : FmtQ) : Nat → Option Instr
  | 0x0 => some (.cgbegin u f)
  | 0x1 => some (.cgcommit u f)
  | 0x2 => some (.cgabort u f)
  | 0x3 => some (.cgstat u f)
  | _ => none

/-- The XLT instruction of an FN (Table ALR-10). -/
def xltFn (u : Agent) (f : FmtQ) : Nat → Option Instr
  | 0x0 => some (.tpin u f)
  | 0x1 => some (.twr u f)
  | 0x2 => some (.kvapp u f)
  | _ => none

/-- The QUE instruction of an FN (Table ALR-13). -/
def queFn (u : Agent) (f : FmtQ) : Nat → Option Instr
  | 0x0 => some (.qpush u f)
  | 0x1 => some (.qpushn u f)
  | 0x2 => some (.qflush u f)
  | 0x3 => some (.qstat u f)
  | _ => none

/-- The instruction that a fetched word names for a unit (Table ALR-2); `none` for an OP or FN that names none. -/
def decodeAlori (u : Agent) (w : BitVec 32) : Option Instr :=
  match (fieldOf w 31 26).toNat with
  | 0x1 => scalarFn u (toA w) (fieldOf w 10 0).toNat
  | 0x2 => some (.addi u (toI w))
  | 0x3 => some (.andi u (toI w))
  | 0x4 => some (.ori u (toI w))
  | 0x5 => some (.xori u (toI w))
  | 0x6 => some (.shi u (toI w))
  | 0x7 => some (.movz u (toI w))
  | 0x8 => some (.movk u (toI w))
  | 0x10 => some (.beq u (toB w))
  | 0x11 => some (.bne u (toB w))
  | 0x12 => some (.blt u (toB w))
  | 0x13 => some (.bge u (toB w))
  | 0x14 => some (.bltu u (toB w))
  | 0x15 => some (.bgeu u (toB w))
  | 0x16 => some (.jal u (toJ w))
  | 0x17 => some (.jalr u (toI w))
  | 0x18 => some (.ld u (toM w))
  | 0x19 => some (.lds u (toM w))
  | 0x1A => some (.st u (toM w))
  | 0x1B => some (.vld u (toMV w))
  | 0x1C => some (.vst u (toMV w))
  | 0x20 => varithFn u (toV w) (fieldOf w 6 3).toNat
  | 0x21 => vmiscFn u (toV w) (fieldOf w 6 3).toNat
  | 0x22 => vcvtFn u (toV w) (fieldOf w 6 3).toNat
  | 0x23 => vspecFn u (toV w) (fieldOf w 6 3).toNat
  | 0x24 => vredFn u (toV w) (fieldOf w 6 3).toNat
  | 0x25 => vdotFn u (toV w) (fieldOf w 6 3).toNat
  | 0x30 => cntFn u (toQ w) (fieldOf w 5 0).toNat
  | 0x31 => some (.csigl u (toI w))
  | 0x32 => some (.cwaitl u (toI w))
  | 0x34 => cgFn u (toQ w) (fieldOf w 5 0).toNat
  | 0x35 => xltFn u (toQ w) (fieldOf w 5 0).toNat
  | 0x36 => queFn u (toQ w) (fieldOf w 5 0).toNat
  | 0x3E => sysFn u (toA w) (fieldOf w 10 0).toNat
  | _ => none

/-- The word of an Alori instruction and the unit that it is for; `none` for the other commands. -/
def encodeAlori (i : Instr) : Option (Agent × BitVec 32) :=
  match i with
  | .add u f => some (u, ofA 0x1 0x0 f)
  | .sub u f => some (u, ofA 0x1 0x1 f)
  | .and u f => some (u, ofA 0x1 0x2 f)
  | .or u f => some (u, ofA 0x1 0x3 f)
  | .xor u f => some (u, ofA 0x1 0x4 f)
  | .sll u f => some (u, ofA 0x1 0x5 f)
  | .srl u f => some (u, ofA 0x1 0x6 f)
  | .sra u f => some (u, ofA 0x1 0x7 f)
  | .min u f => some (u, ofA 0x1 0x8 f)
  | .minu u f => some (u, ofA 0x1 0x9 f)
  | .max u f => some (u, ofA 0x1 0xA f)
  | .maxu u f => some (u, ofA 0x1 0xB f)
  | .cmpeq u f => some (u, ofA 0x1 0x10 f)
  | .cmplt u f => some (u, ofA 0x1 0x11 f)
  | .cmpltu u f => some (u, ofA 0x1 0x12 f)
  | .mul u f => some (u, ofA 0x1 0x20 f)
  | .mulh u f => some (u, ofA 0x1 0x21 f)
  | .mulhu u f => some (u, ofA 0x1 0x22 f)
  | .clz u f => some (u, ofA 0x1 0x30 f)
  | .popc u f => some (u, ofA 0x1 0x31 f)
  | .nop u f => some (u, ofA 0x3E 0x0 f)
  | .endProg u f => some (u, ofA 0x3E 0x1 f)
  | .rdstep u f => some (u, ofA 0x3E 0x2 f)
  | .rdcyc u f => some (u, ofA 0x3E 0x3 f)
  | .rdid u f => some (u, ofA 0x3E 0x4 f)
  | .addi u f => some (u, ofI 0x2 f)
  | .andi u f => some (u, ofI 0x3 f)
  | .ori u f => some (u, ofI 0x4 f)
  | .xori u f => some (u, ofI 0x5 f)
  | .shi u f => some (u, ofI 0x6 f)
  | .movz u f => some (u, ofI 0x7 f)
  | .movk u f => some (u, ofI 0x8 f)
  | .jalr u f => some (u, ofI 0x17 f)
  | .csigl u f => some (u, ofI 0x31 f)
  | .cwaitl u f => some (u, ofI 0x32 f)
  | .beq u f => some (u, ofB 0x10 f)
  | .bne u f => some (u, ofB 0x11 f)
  | .blt u f => some (u, ofB 0x12 f)
  | .bge u f => some (u, ofB 0x13 f)
  | .bltu u f => some (u, ofB 0x14 f)
  | .bgeu u f => some (u, ofB 0x15 f)
  | .jal u f => some (u, ofJ 0x16 f)
  | .ld u f => some (u, ofM 0x18 f)
  | .lds u f => some (u, ofM 0x19 f)
  | .st u f => some (u, ofM 0x1A f)
  | .vld u f => some (u, ofMV 0x1B f)
  | .vst u f => some (u, ofMV 0x1C f)
  | .vadd u f => some (u, ofV 0x20 0x0 f)
  | .vsub u f => some (u, ofV 0x20 0x1 f)
  | .vmul u f => some (u, ofV 0x20 0x2 f)
  | .vfma u f => some (u, ofV 0x20 0x3 f)
  | .vmax u f => some (u, ofV 0x20 0x4 f)
  | .vmin u f => some (u, ofV 0x20 0x5 f)
  | .vand u f => some (u, ofV 0x20 0x6 f)
  | .vor u f => some (u, ofV 0x20 0x7 f)
  | .vxor u f => some (u, ofV 0x20 0x8 f)
  | .vsll u f => some (u, ofV 0x20 0x9 f)
  | .vsra u f => some (u, ofV 0x20 0xA f)
  | .vcmpeq u f => some (u, ofV 0x20 0xB f)
  | .vcmplt u f => some (u, ofV 0x20 0xC f)
  | .vcmple u f => some (u, ofV 0x20 0xD f)
  | .vsel u f => some (u, ofV 0x21 0x0 f)
  | .vbcast u f => some (u, ofV 0x21 0x1 f)
  | .vextr u f => some (u, ofV 0x21 0x2 f)
  | .vins u f => some (u, ofV 0x21 0x3 f)
  | .vperm u f => some (u, ofV 0x21 0x4 f)
  | .vmovp u f => some (u, ofV 0x21 0x5 f)
  | .vmovg u f => some (u, ofV 0x21 0x6 f)
  | .vabs u f => some (u, ofV 0x21 0x7 f)
  | .vneg u f => some (u, ofV 0x21 0x8 f)
  | .vgetexp u f => some (u, ofV 0x21 0x9 f)
  | .vscale u f => some (u, ofV 0x21 0xA f)
  | .vmov u f => some (u, ofV 0x21 0xB f)
  | .vcvt u f => some (u, ofV 0x22 0x0 f)
  | .exp2 u f => some (u, ofV 0x23 0x0 f)
  | .rcp u f => some (u, ofV 0x23 0x1 f)
  | .rsqrt u f => some (u, ofV 0x23 0x2 f)
  | .vredSum u f => some (u, ofV 0x24 0x0 f)
  | .vredMax u f => some (u, ofV 0x24 0x1 f)
  | .vredMin u f => some (u, ofV 0x24 0x2 f)
  | .vredAmax u f => some (u, ofV 0x24 0x3 f)
  | .vdot u f => some (u, ofV 0x25 0x0 f)
  | .cadd u f => some (u, ofQ 0x30 0x0 f)
  | .cwait u f => some (u, ofQ 0x30 0x1 f)
  | .crd u f => some (u, ofQ 0x30 0x2 f)
  | .crdf u f => some (u, ofQ 0x30 0x3 f)
  | .crdh u f => some (u, ofQ 0x30 0x4 f)
  | .cgbegin u f => some (u, ofQ 0x34 0x0 f)
  | .cgcommit u f => some (u, ofQ 0x34 0x1 f)
  | .cgabort u f => some (u, ofQ 0x34 0x2 f)
  | .cgstat u f => some (u, ofQ 0x34 0x3 f)
  | .tpin u f => some (u, ofQ 0x35 0x0 f)
  | .twr u f => some (u, ofQ 0x35 0x1 f)
  | .kvapp u f => some (u, ofQ 0x35 0x2 f)
  | .qpush u f => some (u, ofQ 0x36 0x0 f)
  | .qpushn u f => some (u, ofQ 0x36 0x1 f)
  | .qflush u f => some (u, ofQ 0x36 0x2 f)
  | .qstat u f => some (u, ofQ 0x36 0x3 f)
  | _ => none

end Sys2Proof
end

