-- ==== Sys2Proof/Machine/Codes.lean ====
section
/-! DEFINITION. The status codes of Table FLT-5 (R402) and the event sources of Table FLT-4 (R401). -/
namespace Sys2Proof

/-- OK (Table FLT-5): Success. -/
def Code.ok : Code := 0x0000
/-- ILLEGAL_VALUE (Table FLT-5): Value not accepted. -/
def Code.illegalValue : Code := 0x0101
/-- RESERVED_BIT_SET (Table FLT-5): Reserved bit or field set. -/
def Code.reservedBitSet : Code := 0x0102
/-- OUT_OF_RANGE (Table FLT-5): Address, index or size out of range. -/
def Code.outOfRange : Code := 0x0103
/-- WRONG_STATE (Table FLT-5): Not allowed in the present state. -/
def Code.wrongState : Code := 0x0104
/-- LOCKED (Table FLT-5): Field locked. -/
def Code.locked : Code := 0x0105
/-- NOT_OWNER (Table FLT-5): Wrong port, partition or variant. -/
def Code.notOwner : Code := 0x0106
/-- ILLEGAL_OPCODE (Table FLT-5): No such instruction for the core. -/
def Code.illegalOpcode : Code := 0x0107
/-- IMAGE_INVALID (Table FLT-5): Program image malformed. -/
def Code.imageInvalid : Code := 0x0110
/-- TRAVERSE_INVALID (Table FLT-5): Traverse malformed. -/
def Code.traverseInvalid : Code := 0x0111
/-- TRAVERSE_UNFIT (Table FLT-5): Traverse does not fit the partition. -/
def Code.traverseUnfit : Code := 0x0112
/-- KV_POOL_OVERFILL (Table FLT-5): Pool holds more than its ring. -/
def Code.kvPoolOverfill : Code := 0x0120
/-- KV_POOL_BADENTRY (Table FLT-5): Bad ring entry taken. -/
def Code.kvPoolBadentry : Code := 0x0121
/-- KV_POOL_EMPTY (Table FLT-5): Append found no page. -/
def Code.kvPoolEmpty : Code := 0x0201
/-- QUEUE_FULL (Table FLT-5): Queue or ring full. -/
def Code.queueFull : Code := 0x0202
/-- SPARE_EXHAUSTED (Table FLT-5): No spare row or bank left. -/
def Code.spareExhausted : Code := 0x0203
/-- GROTTO_BUSY (Table FLT-5): Launch above 64 active cores. -/
def Code.grottoBusy : Code := 0x0204
/-- KV_POOL_LOW (Table FLT-5): Pool at its low watermark. -/
def Code.kvPoolLow : Code := 0x0205
/-- TILE_LOST (Table FLT-5): Tile retired and its slice lost. -/
def Code.tileLost : Code := 0x0301
/-- DETERMINISM_BREAK (Table FLT-5): Schedule departed; cause in DATA. -/
def Code.determinismBreak : Code := 0x0302
/-- ECC_UNCORRECTED (Table FLT-5): Uncorrectable codeword. -/
def Code.eccUncorrected : Code := 0x0303
/-- LINK_FAULT (Table FLT-5): Link or port down. -/
def Code.linkFault : Code := 0x0304
/-- MX_CHECK_MISMATCH (Table FLT-5): Check-column mismatch or poisoned row. -/
def Code.mxCheckMismatch : Code := 0x0310
/-- MX_KAT_FAIL (Table FLT-5): Known-answer failure. -/
def Code.mxKatFail : Code := 0x0311
/-- MEM_MARGIN_LOW (Table FLT-5): Channel margins below screen. -/
def Code.memMarginLow : Code := 0x0320
/-- DRIP_THRESHOLD (Table FLT-5): Drip counter at threshold. -/
def Code.dripThreshold : Code := 0x0321
/-- FAB_UNROUTABLE (Table FLT-5): No route to destination. -/
def Code.fabUnroutable : Code := 0x0330
/-- FAB_REJECTED (Table FLT-5): No admission window matched. -/
def Code.fabRejected : Code := 0x0331
/-- LINK_DEGRADED (Table FLT-5): Link narrowed in service. -/
def Code.linkDegraded : Code := 0x0332
/-- TIME_HOLDOVER (Table FLT-5): Time reference lost. -/
def Code.timeHoldover : Code := 0x0333
/-- TIME_STEPPED (Table FLT-5): Device time stepped. -/
def Code.timeStepped : Code := 0x0334
/-- RIDGE_MODULE_HELD (Table FLT-5): Ridge module held or narrowed. -/
def Code.ridgeModuleHeld : Code := 0x0340
/-- RIDGE_WIDTH_MISMATCH (Table FLT-5): Module sides disagreed on width. -/
def Code.ridgeWidthMismatch : Code := 0x0341
/-- GUEST_DENIED (Table FLT-5): Guest message refused. -/
def Code.guestDenied : Code := 0x0342
/-- GUEST_LINK_DOWN (Table FLT-5): UCIe down or guest reset. -/
def Code.guestLinkDown : Code := 0x0343
/-- FUSE_FAULT (Table FLT-5): Fuse unreadable or position wrong. -/
def Code.fuseFault : Code := 0x0344
/-- ROW_DEGRADED (Table FLT-5): Row lost a second tile. -/
def Code.rowDegraded : Code := 0x0350
/-- FW_REJECTED (Table FLT-5): Saddle image failed verification. -/
def Code.fwRejected : Code := 0x0351
/-- TRAIN_FAILED (Table FLT-5): Module or stack failed training. -/
def Code.trainFailed : Code := 0x0352
/-- MARCH_FAILED (Table FLT-5): March faults beyond spares. -/
def Code.marchFailed : Code := 0x0353
/-- RECORD_IGNORED (Table FLT-5): Training record not used. -/
def Code.recordIgnored : Code := 0x0354
/-- SCOPE_RESET (Table FLT-5): Transfer into a resetting scope. -/
def Code.scopeReset : Code := 0x0355
/-- THERM_SLOW (Table FLT-5): Host asked to slow down. -/
def Code.thermSlow : Code := 0x0360
/-- THERM_ENFORCED (Table FLT-5): Cycle skipping enforced. -/
def Code.thermEnforced : Code := 0x0361
/-- THERM_CLOCKDIV (Table FLT-5): Clock divided. -/
def Code.thermClockdiv : Code := 0x0362
/-- THERM_SHUTDOWN (Table FLT-5): Latched thermal shutdown. -/
def Code.thermShutdown : Code := 0x0363
/-- SENSOR_DISAGREE (Table FLT-5): Sensor pair disagrees. -/
def Code.sensorDisagree : Code := 0x0364
/-- SENSOR_SUSPECT (Table FLT-5): Sensor marked suspect. -/
def Code.sensorSuspect : Code := 0x0365
/-- SENSOR_FORECAST (Table FLT-5): Tile governed by forecast and guard band. -/
def Code.sensorForecast : Code := 0x0366
/-- COOLANT_STOPPED (Table FLT-5): Flow stopped or fast rise. -/
def Code.coolantStopped : Code := 0x0367
/-- SUPPLY_WARNING (Table FLT-5): Dip below warning, recovered. -/
def Code.supplyWarning : Code := 0x0368
/-- SUPPLY_SUSTAINED (Table FLT-5): Below warning too long; throttle enforced. -/
def Code.supplySustained : Code := 0x0369
/-- SUPPLY_RESET (Table FLT-5): Core domain reset by supply. -/
def Code.supplyReset : Code := 0x036A
/-- FW_HANDOVER (Table FLT-5): Image handover completed. -/
def Code.fwHandover : Code := 0x0370
/-- DEBUG_UNLOCKED (Table FLT-5): Debug port unlocked. -/
def Code.debugUnlocked : Code := 0x0371
/-- DEBUG_DENIED (Table FLT-5): Unlock challenge failed. -/
def Code.debugDenied : Code := 0x0372
/-- IDE_INTEGRITY (Table FLT-5): IDE integrity check failed. -/
def Code.ideIntegrity : Code := 0x0373
/-- CAIRN_SILENT (Table FLT-5): No cairn record for 120 s. -/
def Code.cairnSilent : Code := 0x0374
/-- STEWARD_LAPSED (Table FLT-5): Steward heartbeat lapsed. -/
def Code.stewardLapsed : Code := 0x0380
/-- STEWARD_CANCELLED (Table FLT-5): Claim cancelled by heartbeat. -/
def Code.stewardCancelled : Code := 0x0381
/-- STEWARD_TAKEN (Table FLT-5): Stewardship taken over. -/
def Code.stewardTaken : Code := 0x0382
/-- SC_WATCHDOG (Table FLT-5): Saddle controller watchdog acted. -/
def Code.scWatchdog : Code := 0x0383
/-- RESIDUE_FAULT (Table FLT-5): Residue mismatch. -/
def Code.residueFault : Code := 0x0384
/-- CLOCK_FAULT (Table FLT-5): Clock lost lock or frequency. -/
def Code.clockFault : Code := 0x0385
/-- KAT_OVERDUE (Table FLT-5): Known-answer interval exceeded. -/
def Code.katOverdue : Code := 0x0386
/-- MESH_RESEND (Table FLT-5): Mesh flit resent. -/
def Code.meshResend : Code := 0x0387
/-- LOG_LOST (Table FLT-5): Glow-log events not logged. -/
def Code.logLost : Code := 0x0388
/-- SC_RESTARTED (Table FLT-5): Saddle controller restarted. -/
def Code.scRestarted : Code := 0x0389
/-- SYNC_SATURATED (Table FLT-5): Counter saturated. -/
def Code.syncSaturated : Code := 0x0401
/-- WAIT_UNREACHABLE (Table FLT-5): Wait target above 2⁶⁴−1. -/
def Code.waitUnreachable : Code := 0x0402
/-- CG_ABORT_CONFLICT (Table FLT-5): Group aborted by conflict. -/
def Code.cgAbortConflict : Code := 0x0501
/-- CG_ABORT_CAPACITY (Table FLT-5): Group over capacity. -/
def Code.cgAbortCapacity : Code := 0x0502
/-- CG_ABORT_FAULT (Table FLT-5): Group failed on error or halt. -/
def Code.cgAbortFault : Code := 0x0503
/-- CG_ABORT_SOFTWARE (Table FLT-5): Group discarded by CGABORT. -/
def Code.cgAbortSoftware : Code := 0x0504

/-- The source of physical tile `h` (Table FLT-4). -/
def srcTile (h : Nat) : Nat := h
/-- The source of the grotto core with that AGENT. -/
def srcGrotto (k : Nat) : Nat := 0x1000 + k
/-- The source of partition `p`. -/
def srcPart (p : Nat) : Nat := 0x2000 + p
/-- The source of host-visible group `g`. -/
def srcGroup (g : Nat) : Nat := 0x2100 + g
/-- The source of stack `s`. -/
def srcStack (s : Nat) : Nat := 0x3000 + s
/-- The source of Mirsar link `l`. -/
def srcLink (l : Nat) : Nat := 0x4000 + l
/-- The source of ridge module `m`. -/
def srcRidge (m : Nat) : Nat := 0x5000 + m
/-- The source of a host port. -/
def srcPort (port : Bool) : Nat := if port then 0x6001 else 0x6000
/-- The source of sensor `n`. -/
def srcSensor (n : Nat) : Nat := 0x7000 + n
/-- The source of voltage monitor `n`. -/
def srcMonitor (n : Nat) : Nat := 0x8000 + n
/-- The source of the PLL of cluster `c`. -/
def srcPll (c : Nat) : Nat := 0xC000 + c
/-- The source of the fabric, no single link. -/
def srcFabric : Nat := 0x40FF
/-- The source of the saddle controller and glow watchdog. -/
def srcSaddle : Nat := 0x6100
/-- The source of the fuse reader. -/
def srcFuse : Nat := 0x6101
/-- The source of the reset and bring-up sequencer. -/
def srcBup : Nat := 0x6102
/-- The source of the walker. -/
def srcWalker : Nat := 0x6103
/-- The source of device time. -/
def srcTime : Nat := 0x6104
/-- The source of the glow log. -/
def srcLog : Nat := 0x6105
/-- The source of the guest firewall. -/
def srcGuest : Nat := 0x9000
/-- The source of the UCIe module. -/
def srcUcie : Nat := 0x9001
/-- The source of the security engine. -/
def srcSec : Nat := 0xA000
/-- The source of the debug port. -/
def srcDebug : Nat := 0xA001
/-- The source of the cairn input path. -/
def srcCairn : Nat := 0xB000
/-- The source of the saddle clock. -/
def srcSaddleClock : Nat := 0xC020
/-- The source of the glow clock. -/
def srcGlowClock : Nat := 0xC021

end Sys2Proof
end

