-- ==== Sys2Proof/Config.lean ====
section
/-! DEFINITION. What one part fixes (fuses, mask ROM, calibration) and the free values the spec leaves open.
Every constant here is opaque: nothing in Lean can evaluate it, so a statement holds whatever it is. -/
namespace Sys2Proof.Config

/-- The k-th free value drawn, a number (log entry 2). -/
opaque freeNat : Nat → Nat

/-- Cycles beyond the minimum of 40 that an own-slice load of a core takes that issues on a cycle, modulo 81 (Table SPR-2, log
entry 94): core, cycle. -/
opaque sliceWait : Nat → Nat → Nat
/-- Whether a BK load of a grotto core that issues on a cycle finds its row open (Table ALR-24, log entry 94): core, cycle. -/
opaque rowOpen : Nat → Nat → Bool

/-- What the other fields of a damaged glow-log entry read as (R395): the number of the read. -/
opaque logDamage : Nat → Nat

/-- Units that a link's send buffer holds beyond the 4,097 of the longest FSEND (R299, log entry 98). -/
opaque sendBuffer : Nat

/-- VARIANT of D2D_FID0: `true` for a DH7-512G (R1, R3). -/
opaque variantG : Bool
/-- LETTER and DIGIT of D2D_FID0 (R3). -/
opaque letter : BitVec 4
/-- DIGIT of D2D_FID0. -/
opaque digit : BitVec 4
/-- D2D_FID1. -/
opaque serial : Word
/-- GVNOM of D2D_FID2, mV (R353); the DH7-512A has 0. -/
opaque gvnom : BitVec 12
/-- STKPOS, PBPOS and PAPOS of D2D_FID2, the positions that the dies read (R342). -/
opaque positions : Word
/-- D2D_RFUSEm (R339). -/
opaque ridgeFuse : Nat → Word
/-- GTLIM in units of 0.25 °C (R426). -/
opaque gtlim : Nat
/-- VNOM in mV (R405). -/
opaque vnom : Nat
/-- The setpoint of VSAD in mV, which Table PWR-1 gives as a range. -/
opaque vsadNom : Nat

/-- KEYHASH0 to KEYHASH3 (Table SEC-1). -/
opaque keyHash : Nat → BitVec 384
/-- KEYREV as fused at package test. -/
opaque keyRev : BitVec 4
/-- MINSVN as fused at package test, 0 to 64. -/
opaque minSvn : Nat
/-- DBGKEYHASH. -/
opaque dbgKeyHash : BitVec 384
/-- CAIRNCERT, and the public key that it certifies. -/
opaque cairnCert : List Byte
/-- The cairn's public key. -/
opaque cairnKey : BitVec 768

/-- SHA-384 (named by the spec, defined by its own standard). -/
opaque sha384 : List Byte → BitVec 384
/-- Verification of an ECDSA signature with SHA-384 on brainpoolP384r1: key, message, signature. -/
opaque ecdsaVerify : List Byte → List Byte → List Byte → Bool
/-- HMAC-SHA-384 under the record key (R360, R438). -/
opaque recordMac : List Byte → BitVec 384
/-- The receipt that the DeviceID key signs (R450). -/
opaque receipt : List Byte → BitVec 768
/-- The cairn's signature over a record or an event (R450, R453). -/
opaque cairnSign : List Byte → BitVec 768
/-- The bytes of an SPDM or DOE answer to the request of that number. -/
opaque spdmAnswer : Nat → List Byte
/-- The digest of the mask ROMs (measurement 1). -/
opaque romDigest : BitVec 384
/-- Opaque sections of a training record (Table BUP-2): the draw number. -/
opaque recordSections : Nat → List Byte
/-- What the sections of a record written before VGLOW came up say: tiles retired in service. -/
opaque recordTiles : List Byte → List Nat
/-- What such sections say of retired stack banks: stack, channel, bank. -/
opaque recordBanks : List Byte → List (Nat × Nat × Nat)
/-- The cairn's serial number. -/
opaque cairnSerial : Word
/-- Program version, ROM CRC and calibration CRC of IDENT, 10 bytes. -/
opaque cairnIdent : BitVec 80
/-- The IDCODE of the debug port. -/
opaque idcode : W32

/-- The choice within the bound of 2 ulp that a special function makes (R102): function, argument, a number
whose residue picks one of the allowed neighbours. -/
opaque specialChoice : Nat → W32 → Nat
/-- The forecast of sensor `n` 20 ms ahead, in units of 0.25 °C, from the readings, the inlet temperature, the
flow and the planned power (R420). -/
opaque forecast : Nat → List (Nat × Int) → Nat → Nat → Nat → Int

/-- Whether a codeword with three or more bad symbols is taken as good (Table MEM-4 promises nothing there): data
and check differences. -/
opaque eccPasses : Nat → Nat → Bool
/-- What the data delivered from such a codeword differs by. -/
opaque eccDelivers : Nat → Nat → Nat
/-- The check word of a codeword of that size and data (the codes' matrices are not in the spec). -/
opaque checkWord : Nat → Nat → Nat
/-- The poison check pattern (R228). -/
opaque poisonCheck : Nat → Nat

end Sys2Proof.Config
end

