-- ==== Sys2Proof/Machine/Bits.lean ====
section
/-! DEFINITION. Bit fields, two's complement, rounding up and byte order (00_scope.md: little-endian, bits from 0). -/
namespace Sys2Proof

/-- Bits `hi:lo` of a register, as a number. -/
def Word.field (w : Word) (hi lo : Nat) : Nat := (w.toNat >>> lo) % 2 ^ (hi + 1 - lo)

/-- Bit `i` of a register. -/
def Word.bit (w : Word) (i : Nat) : Bool := w.getLsbD i

/-- The mask of bits `hi:lo`. -/
def Word.mask (hi lo : Nat) : Word := BitVec.ofNat 64 ((2 ^ (hi + 1 - lo) - 1) <<< lo)

/-- `w` with bits `hi:lo` replaced by `n`. -/
def Word.put (w : Word) (hi lo n : Nat) : Word :=
  (w &&& ~~~(Word.mask hi lo)) ||| (BitVec.ofNat 64 (n <<< lo) &&& Word.mask hi lo)

/-- `w` with bit `i` set to `b`. -/
def Word.putBit (w : Word) (i : Nat) (b : Bool) : Word := w.put i i (if b then 1 else 0)

/-- Bits `hi:lo` of a number. -/
def bitsOf (n hi lo : Nat) : Nat := (n >>> lo) % 2 ^ (hi + 1 - lo)

/-- The integer that the `w` low bits of `n` give in two's complement. -/
def signedOf (w n : Nat) : Int :=
  let m := n % 2 ^ w
  if m < 2 ^ (w - 1) then (m : Int) else (m : Int) - (2 ^ w : Nat)

/-- The `w`-bit two's complement pattern of an integer. -/
def unsignedOf (w : Nat) (i : Int) : Nat := (i % (2 ^ w : Nat)).toNat

/-- A count that saturates at 2^w - 1. -/
def satAdd (w a b : Nat) : Nat := min (a + b) (2 ^ w - 1)

/-- `n` rounded up to a multiple of `k`. -/
def roundUp (n k : Nat) : Nat := (n + k - 1) / k * k

/-- The `len` low bytes of a number, least significant first. -/
def bytesOf (len n : Nat) : List Byte := (List.range len).map fun i => BitVec.ofNat 8 (n >>> (8 * i))

/-- The little-endian number that bytes spell. -/
def natOfBytes : List Byte → Nat
  | [] => 0
  | b :: bs => b.toNat + 256 * natOfBytes bs

end Sys2Proof
end

