-- ==== Sys2Proof/Machine/Map.lean ====
section
/-! DEFINITION. Sparse maps keyed by numbers, and byte memories, as sorted lists. -/
namespace Sys2Proof.Machine

/-- A sparse map: key and value pairs in rising key order. -/
abbrev SMap (α : Type) := List (Nat × α)

/-- The value at key `k`, `d` where the map lists none. -/
def SMap.get {α : Type} (d : α) : SMap α → Nat → α
  | [], _ => d
  | (j, v) :: r, k => if k = j then v else SMap.get d r k

/-- Whether key `k` is listed. -/
def SMap.has {α : Type} (m : SMap α) (k : Nat) : Bool := m.any fun e => e.1 == k

/-- The map with `v` at key `k`. -/
def SMap.put {α : Type} (k : Nat) (v : α) : SMap α → SMap α
  | [] => [(k, v)]
  | (j, w) :: r =>
    if k < j then (k, v) :: (j, w) :: r
    else if k = j then (k, v) :: r
    else (j, w) :: SMap.put k v r

/-- The map with nothing listed at key `k`. -/
def SMap.drop {α : Type} (k : Nat) : SMap α → SMap α
  | [] => []
  | (j, w) :: r => if k = j then SMap.drop k r else (j, w) :: SMap.drop k r

/-- A byte memory: address and byte pairs, addresses rising, no listed byte equal to what an unlisted address
reads as. -/
abbrev Mem := List Host.Cell

/-- What an unlisted address reads as: the fill value of R224 (log entry 6). -/
def Mem.blank : Byte := 0

/-- The byte at `a`. -/
def Mem.read (m : Mem) (a : Nat) : Byte := SMap.get Mem.blank m a

/-- The memory with byte `b` at `a`; a blank byte is not listed. -/
def Mem.write (m : Mem) (a : Nat) (b : Byte) : Mem :=
  if b = Mem.blank then SMap.drop a m else SMap.put a b m

/-- The addresses rise strictly from above `lo`, and no listed byte is blank. -/
def Mem.wfFrom : Option Nat → Mem → Bool
  | _, [] => true
  | lo, (a, b) :: r =>
    (match lo with | none => true | some l => decide (l < a)) && (b != Mem.blank) && Mem.wfFrom (some a) r

/-- The canonical form. -/
def Mem.wf (m : Mem) : Bool := Mem.wfFrom none m

/-- The `len` bytes from `a`. -/
def Mem.readBytes (m : Mem) (a len : Nat) : List Byte := (List.range len).map fun i => m.read (a + i)

/-- The memory with the bytes `bs` from `a`. -/
def Mem.writeBytes (m : Mem) (a : Nat) : List Byte → Mem
  | [] => m
  | b :: bs => Mem.writeBytes (m.write a b) (a + 1) bs

/-- The memory with the bytes `bs` from `a` where the mask bit is 1. -/
def Mem.writeMasked (m : Mem) (a : Nat) : List Byte → List Bool → Mem
  | b :: bs, k :: ks => Mem.writeMasked (if k then m.write a b else m) (a + 1) bs ks
  | _, _ => m

/-- The little-endian number in the `len` bytes from `a`. -/
def Mem.readNat (m : Mem) (a len : Nat) : Nat := natOfBytes (m.readBytes a len)

/-- The memory with the little-endian bytes of `n`. -/
def Mem.writeNat (m : Mem) (a len n : Nat) : Mem := m.writeBytes a (bytesOf len n)

/-- The memory with the bytes from `a` to `a + len - 1` filled with zeros (R224): nothing listed there. -/
def Mem.fill (m : Mem) (a len : Nat) : Mem := m.filter fun c => decide (c.1 < a ∨ a + len ≤ c.1)

end Sys2Proof.Machine
end

