-- ==== Sys2Proof/Machine/State.lean ====
section
/-! DEFINITION. The state of the device: everything the spec gives it, as plain data, and the state right
after reset.  INVENTORY.md lists each piece with its rule and reset value. -/
namespace Sys2Proof.Machine

/-- Why the machine stops with a fault. -/
inductive Fault where
  /-- Raised by CLOCK_MONITOR: the standby saddle clock fails while the first is failed. R387 places this
  outside the guarantee and gives no effect. Safe: the machine stops. -/
  | saddleClockLost
  deriving DecidableEq, Repr

/-- Why a command has no meaning. -/
inductive Refusal where
  /-- Raised by an arm of `exec` whose command has no meaning yet. Safe. -/
  | notModelled (mnemonic : String)
  deriving DecidableEq, Repr

/-- Context states (Table SPR-1). -/
inductive CtxState where
  | idle | ready | wait | halted
  deriving DecidableEq, Repr

/-- What a context, a queue head or a grotto core waits on (R79, R83, R44). `met` is the cycle of the write
that met a counter wait, `sent` the cycle on which a wake of the saddle arrives (R172), `freed` the cycle on which a slot freed or a bank was released. -/
inductive Waiting where
  | none
  | counter (c : Cnt) (target : Nat) (sent : Option Nat) (met : Option Nat)
  | slot (q : Nat) (freed : Option Nat)
  | bank (b : Nat) (freed : Option Nat)
  deriving DecidableEq, Repr

/-- A context's own registers (R76) and state. -/
structure Ctx where
  pc : Nat := 0
  g : SMap Word := []
  v : SMap Vec := []
  p : SMap Word := []
  st : CtxState := .idle
  code : Code := 0
  wait : Waiting := .none
  cgCode : Code := 0
  deriving DecidableEq, Repr

/-- Queue states (TILE_Q_STATEq STATE). -/
inductive QState where
  | run | stalled | halted
  deriving DecidableEq, Repr

/-- A queue entry (R148): the command, its clause block, the context that pushed it. -/
structure QEntry where
  cmd : BitVec 128
  clause : BitVec 128
  ctx : Nat
  deriving DecidableEq, Repr


/-- A weight block (R37): format code, depth, width, the K × N element codes row by row, the K/32 × N scale
bytes, and whether check sums were formed (R63). -/
structure WBlock where
  fmt : Nat
  k : Nat
  n : Nat
  w : List Nat
  sc : List Nat
  chk : Bool
  deriving DecidableEq, Repr

/-- A command that has started: its entry, start cycle and due cycle, whether it has completed, whether it must
not signal (R92, R93), for an MXMUL the block that it uses and its activation and scale bytes, and for an MXDRAIN how
many of its rows are in the tile store (R42). -/
structure Flight where
  entry : QEntry
  start : Nat
  due : Nat
  done : Bool := false
  failed : Bool := false
  blk : Option WBlock := none
  act : List Byte := []
  scales : List Byte := []
  written : Nat := 0
  hdr : Option FabHeader := none
  deriving DecidableEq, Repr

/-- A tile queue (R88 to R94). `headReady` says that the head has passed its static checks; `headMet` is the
cycle from which its wait clause lets it start, `wake` the cycle on which a wake of the saddle arrives. -/
structure Queue where
  held : List QEntry := []
  headReady : Bool := false
  headMet : Option Nat := none
  wake : Option Nat := none
  flights : List Flight := []
  st : QState := .run
  last : Code := 0
  flushing : Bool := false
  headFree : Nat := 0
  deriving DecidableEq, Repr

/-- Where an image lies in a store (R106). -/
structure Img where
  loadOff : Nat
  codeSize : Nat
  entry : Nat := 0
  deriving DecidableEq, Repr

/-- An entry of a translation buffer (R264): the address it starts at, its size in bytes, the output (`none`
for an empty pinned entry, R267), pinned for the running step or the next. -/
structure TEntry where
  part : Nat
  va : Nat
  size : Nat
  oa : Option Nat
  pinNow : Bool := false
  pinNext : Bool := false
  deriving DecidableEq, Repr

/-- The spaces a commit group's store names (R135). -/
inductive GSpace where
  | ts | sl | va
  deriving DecidableEq, Repr

/-- A line that a group holds (R219): its space, address, masked bytes, the physical line registered for
it (R220), and whether an append of the group held it before its first store, which then consumes nothing (R136). -/
structure GLine where
  space : GSpace
  addr : Nat
  bytes : SMap Byte
  phys : Option Nat
  byApp : Bool := false
  deriving DecidableEq, Repr

/-- A staged translation write or append, in staging order (R141). -/
inductive GOp where
  | twr (va : Nat) (entry : Word)
  | kvapp (va : Nat) (n : Nat) (phys : Option Nat)
  deriving DecidableEq, Repr

/-- A staged counter advance: the counter and the amount. -/
structure GAdd where
  c : Cnt
  amount : Nat
  deriving DecidableEq, Repr

/-- The phase of a commit group: filling, committing (counter index, cycle of the CGCOMMIT), past its commit
point (the due cycle of its completion, its outcome). -/
inductive GPhase where
  | filling
  | committing (idx : Nat) (since : Nat)
  | landed (idx : Nat) (due : Nat) (code : Code)
  deriving DecidableEq, Repr

/-- A commit group (R134 to R143); `used` are the addresses of the translation entries that it used or writes
(R137, R221). -/
structure Group where
  ctx : Nat
  lines : List GLine := []
  ops : List GOp := []
  adds : List GAdd := []
  used : List Nat := []
  aborted : Option Code := none
  phase : GPhase := .filling
  deriving DecidableEq, Repr

/-- A TPIN of the running step (R144): the counters to advance when its walks are done, whether they are. -/
structure Tpin where
  counters : List Nat
  done : Bool
  deriving DecidableEq, Repr

/-- A scrub pass in progress (R232): the cycle it started on, the next byte it reads, and what it has found. -/
structure Scrub where
  started : Nat := 0
  next : Nat := 0
  corr : Nat := 0
  unc : Nat := 0
  first : Nat := 0
  deriving DecidableEq, Repr

/-- A physical tile (Table MX-1) with the state of the logical tile it carries; `tpinLate` are the counters of a
TPIN whose walks run on past its step; `bankDone` gives for a bank the cycle of the last result written to it (R42),
`lastDrain` the last MXDRAIN that completed and its start (R43); `matrixBarred` says that a mismatch bars matrix commands
until the next step (R66), `answers` are by unit the answers of walks for one use alone (R220), `diagMismatch` that the diagnosis in progress follows a mismatch (R68); `refreshRow` is the row that the next refresh slot
refreshes, `lastSlot` the cycle on which the last one started (R198), `rowCopied` says that a window has served the row's
retirement (R234). -/
structure Tile where
  ctx : SMap Ctx := []
  qs : SMap Queue := []
  acc : SMap W32 := []
  poison : List Nat := []
  shadow : Option WBlock := none
  active : Option WBlock := none
  loadDue : Option (WBlock × Nat) := none
  shadowFree : Nat := 0
  bankDone : SMap Nat := []
  lastDrain : Option (BitVec 128 × Nat) := none
  matrixBarred : Bool := false
  store : Mem := []
  slice : Mem := []
  spareUsed : SMap Nat := []
  rowOnSpare : SMap Nat := []
  img : Option Img := none
  tbuf : List TEntry := []
  answers : SMap TEntry := []
  group : Option Group := none
  tpin : Option Tpin := none
  tpinLate : List Nat := []
  cnt : SMap Word := []
  sat : List Nat := []
  katFrom : Option Nat := none
  kat : Option Nat := none
  diagFrom : Option Nat := none
  diagWanted : Bool := false
  diagMismatch : Bool := false
  unrepro : List Nat := []
  residues : List (Nat × Nat) := []
  meshBad : SMap Nat := []
  held : Nat := 0
  rowret : Option Nat := none
  rowCopied : Bool := false
  refreshRow : Nat := 0
  lastSlot : Option Nat := none
  scrub : Scrub := {}
  deriving DecidableEq, Repr

/-- Grotto core states (Table GRT-2). -/
inductive GrtState where
  | idle | ready | wait | paused | halted
  deriving DecidableEq, Repr

/-- A unit queued at a bank group (R254): whether the traverse plans it (R256), and whether it is a scrub or
retirement unit (R257). -/
structure BankUnit where
  planned : Bool
  maintenance : Bool
  since : Nat
  deriving DecidableEq, Repr

/-- Issue times of a unit (R77, R78, R82): by register the cycle from which its value can be used (g registers from 0, v
and w from 32, p from 64), the cycle from which its next instruction can issue, and the cycle of a wake after which it has
not issued. -/
structure Board where
  ready : SMap Nat := []
  next : Nat := 0
  woke : Option Nat := none
  deriving DecidableEq, Repr

/-- Issue of a core (R77): the context of the core that issued last, the cycle from which the core can issue again, and the
one from which its special-function unit accepts again. -/
structure CoreBoard where
  last : Nat := 3
  free : Nat := 0
  sfu : Nat := 0
  deriving DecidableEq, Repr

/-- A grotto core (07_grotto.md); `running` is 1 while its bank group
runs a refresh operation that was owed, 2 while it runs one that fell due with the core IDLE or HALTED; `opFrom` is the cycle
on which that operation started. -/
structure Grotto where
  pc : Nat := 0
  g : SMap W32 := []
  w : SMap Vec := []
  ls : Mem := []
  cnt : SMap Word := []
  sat : List Nat := []
  launches : Word := 0
  owed : Nat := 0
  running : Nat := 0
  opFrom : Nat := 0
  st : GrtState := .idle
  code : Code := 0
  img : Option Img := none
  wait : Waiting := .none
  launchDue : Option Nat := none
  queue : List BankUnit := []
  deriving DecidableEq, Repr

/-- A step record of a placed traverse (Tables SPR-8 to SPR-12), its lists read in. -/
structure EntryRec where
  first : Nat
  count : Nat
  offs : List Nat
  deriving DecidableEq, Repr

/-- A pin-list entry (Table SPR-10). -/
structure PinRec where
  va : Nat
  first : Nat
  count : Nat
  ntrans : Nat
  size : Nat
  deriving DecidableEq, Repr

/-- A counter-plan entry (Table SPR-11). -/
structure CplanRec where
  counter : Nat
  value : Nat
  agent : Nat
  isWait : Bool
  unit : Nat
  deadline : Nat
  deriving DecidableEq, Repr

/-- A power plan (Table SPR-12). -/
structure PplanRec where
  gactive : List Nat
  pkgw : Nat
  clusters : List (Nat × Nat)
  deriving DecidableEq, Repr

/-- A step record (Table SPR-8). -/
structure StepRec where
  budget : Nat
  align : Bool
  entries : List EntryRec
  pins : List PinRec
  cplan : List CplanRec
  pplan : PplanRec
  deriving DecidableEq, Repr

/-- An image-table entry (Table SPR-7) with the image's bytes. -/
structure ImageRec where
  off : Nat
  grotto : Bool
  gstack : Nat
  first : Nat
  count : Nat
  bytes : List Byte
  deriving DecidableEq, Repr

/-- A loaded traverse (Table SPR-6). -/
structure Traverse where
  loop : Bool
  clusterMask : Nat
  width : Nat
  refmode : Nat
  dispatch : Nat
  lenBucket : Nat
  loopStep : Nat
  images : List ImageRec
  steps : List StepRec
  deriving DecidableEq, Repr

/-- An add that a unit issued in the running step (R182). -/
structure Issued where
  agent : Nat
  unit : Nat
  counter : Nat
  amount : Nat
  cycle : Nat
  deriving DecidableEq, Repr

/-- An open job of a host queue (R329, R330). -/
structure Job where
  slot : Nat
  jobId : Nat
  nseq : Nat
  lenva : Nat
  overflow : Bool
  firstStep : Nat
  closed : Bool := false
  code : Code := 0
  dbrk : Nat := 0
  heldCnt : Nat := 0
  deriving DecidableEq, Repr

/-- A host queue (R328 to R332): `c` completions written, jobs opened and closed so far, the jobs open or
closed and not yet due, and the completions that wait for the ring. -/
structure HQueue where
  c : Nat := 0
  opened : Nat := 0
  jobs : List Job := []
  waiting : List (List Byte) := []
  deriving DecidableEq, Repr

/-- What a partition holds beside its registers; `slotLate` are the links that have reported SLOT_LATE in the
running step (R191), `xltinv` KVP_XLTINV as it stood at the GO of the invalidation in progress (R268). -/
structure Part where
  trv : Option Traverse := none
  started : Bool := false
  stepStart : Nat := 0
  stopped : Nat := 0
  stoppedAt : Option Nat := none
  budgetEnd : Bool := false
  runAt : Option Nat := none
  paused : List Nat := []
  pauseCause : List Nat := []
  resume : List Nat := []
  broken : List Nat := []
  issued : List Issued := []
  checked : List Nat := []
  withheld : List Nat := []
  hq : SMap HQueue := []
  refused : List Nat := []
  heldMarks : List Nat := []
  slotLate : List Nat := []
  forcedOk : SMap Nat := []
  repairs : List (Nat × Nat) := []
  xltinv : Word := 0
  deriving DecidableEq, Repr

/-- An add in flight toward a counter (R167, Table SYNC-2). -/
structure Add where
  c : Cnt
  amount : Nat
  due : Nat
  deriving DecidableEq, Repr

/-- A regulator (R212): the buckets G and C in sixths of a unit of charge, as they stood on cycle `at_`. -/
structure Reg where
  g : Nat
  c : Nat
  at_ : Nat
  deriving DecidableEq, Repr

/-- A stack access in service (R213): the request, guaranteed or excess, and its due cycle if fixed. -/
structure Access where
  req : StackReq
  guaranteed : Bool
  due : Option Nat
  deriving DecidableEq, Repr

/-- What a stack controller holds beside its registers; `retired` are the channels and banks retired into spares, `turn` is
by channel the partition of the last excess request served (R213), `bkLog` by grotto cycle the BK accesses admitted in the last
sixteen and `bkLast` the core admitted last (R248), `waived` the cores that maintenance waits for no longer (R257), `copyFrom`
the cycle on which a bank retirement started. -/
structure Stack where
  regs : SMap Reg := []
  accesses : List Access := []
  waitingReqs : List StackReq := []
  sparesUsed : SMap Nat := []
  bankret : Option (Nat × Nat) := none
  retired : List (Nat × Nat) := []
  scrub : Scrub := {}
  coolRounds : Nat := 0
  margFrom : Nat := 0
  turn : SMap Nat := []
  bkLog : SMap Nat := []
  bkLast : Nat := 127
  waived : List Nat := []
  copyFrom : Nat := 0
  deriving DecidableEq, Repr

/-- What a translation walk is for (R265, R266, R269). -/
inductive WalkFor where
  | tpin (lidx : Nat) (pinNext : Bool)
  | use (lidx : Nat) (unit : Nat)
  | arrival
  deriving DecidableEq, Repr

/-- A walk that the walker runs. -/
structure Walk where
  part : Nat
  va : Nat
  why : WalkFor
  since : Nat
  placed : Bool := true
  deriving DecidableEq, Repr

/-- An error pattern stored in a data word and its check word (R229). -/
structure ErrPat where
  dxor : Nat
  cxor : Nat
  deriving DecidableEq, Repr

/-- Error patterns (what the stored bits differ by from the data last written) and poison of one memory, by the
base address of the codeword (R226 to R229). -/
structure Ecc where
  pats : SMap ErrPat := []
  poison : List Nat := []
  deriving DecidableEq, Repr

/-- A physical fault present in the silicon (log entry 4): what the checks of R385 and R69 find, and an uncorrectable word in a
slot of the glow log (R395). -/
inductive PhysFault where
  | residueCtx (t : Nat) (n : Nat)
  | residueQueue (t : Nat) (q : Nat)
  | array (h : Nat) (col : Nat) (flip : W32)
  | logSlot (slot : Nat)
  deriving DecidableEq, Repr

/-- A line of a scheduled transfer on its way to partition `part`, or its signal alone where `data` is empty (R301, R302):
it arrives on cycle `arrive`, after which it waits in the link's elastic buffer, and is written on step-clock cycle `slot` of the
step that the header's stamp names. -/
structure Delivery where
  link : Nat
  part : Nat
  hdr : FabHeader
  data : List Byte
  arrive : Nat
  slot : Nat
  arrived : Bool
  deriving DecidableEq, Repr

/-- What travels on a link: a transfer (R298) or a failure notice (R303). -/
inductive Transit where
  | xfer (h : FabHeader) (data : List Byte)
  | notice (n : Notice)
  deriving DecidableEq, Repr
/-- What waits to leave through a link, less the units sent: `src` is the link and channel (VC1?) whose receive buffer its
units hold (R303). -/
structure Pend where
  body : Transit
  src : Option (Nat × Bool)
  sent : Nat := 0
  deriving DecidableEq, Repr
/-- Units of a transit, from unit `first` on, as they stand in a replay buffer (R291). -/
structure Chunk where
  body : Transit
  first : Nat
  units : Nat
  deriving DecidableEq, Repr

/-- What a link controller holds beside its registers (R289 to R296, R303): frames that failed in a row on the sending and
the receiving side, twice the delays of the last sixteen echoes in 2^-4 ns, the echoes in a row outside and inside
WLOCK ± 1, the echoes missed in a row, the lanes that training or realignment has left, whether the peer is LOCKED; what waits in
the scheduled class and in VC0 and VC1; the replay buffer; credits for the peer's buffers and credits owed to it; the cycle from
which the next unit can arrive. -/
structure Link where
  replay : Nat := 0
  badRow : Nat := 0
  echoes : List Int := []
  outside : Nat := 0
  inside : Nat := 0
  missed : Nat := 0
  lanesWanted : BitVec 4 := 0xF
  peerLocked : Bool := false
  sched : List Pend := []
  vc0 : List Pend := []
  vc1 : List Pend := []
  buf : List Chunk := []
  credit0 : Nat := 512
  credit1 : Nat := 512
  owed0 : Nat := 0
  owed1 : Nat := 0
  inFree : Nat := 0
  deriving DecidableEq, Repr

/-- Device time beside the TIME registers (R304 to R310): `t` counts thirds of 2^-16 ns, `rem` what a steered rate has
carried beyond it, `refFrom` when the role and its source were chosen. -/
structure DevTime where
  t : Nat := 0
  rem : Nat := 0
  refFrom : Nat := 0
  pendingSet : Option Word := none
  good : Nat := 0
  missedRef : Nat := 0
  lastPps : Option Nat := none
  onUplink2 : Bool := false
  newE0 : Option Word := none
  deriving DecidableEq, Repr

/-- One PCIe port (R312, R334, R441): link, virtual functions enabled, MSI-X mask and pending bits of each function (function × 32 +
vector), IDE keys, key sets in use and streams that failed their check, SPDM sessions (whether each is established). -/
structure Port where
  up : Bool := false
  vfs : Nat := 0
  masked : List Nat := []
  msixPending : List Nat := []
  ideKeys : List IdeKey := []
  ideSecure : List IdeSet := []
  ideBroken : List Nat := []
  sessions : List (Nat × Bool) := []
  deriving DecidableEq, Repr

/-- Stewardship (R321 to R323): the steward port and strap, LAPSED, CLAIMSTAT, and the cycles of the last heartbeat and
of the start of a fence. -/
structure Stewardship where
  port : Bool := false
  strap : Bool := false
  lapsed : Bool := false
  claim : Nat := 0
  lastBeat : Nat := 0
  fenceFrom : Nat := 0
  deriving DecidableEq, Repr

/-- What a training record carries from one start to the next (R361): its opaque sections, tiles retired in service,
retired stack banks (stack, channel, bank). -/
structure TrainRec where
  sections : List Byte
  tiles : List Nat
  banks : List (Nat × Nat × Nat)
  deriving DecidableEq, Repr

/-- A row repair in progress (Table BUP-3): the failed physical tile and its logical index, whether its counters can be
read, tiles moved so far, the outcome of the refill with the slice that it gives, whether the row ends degraded. -/
structure RowRepair where
  tile : Nat
  lidx : Nat
  readable : Bool
  moved : Nat := 0
  refill : Option Bool := none
  slice : Mem := []
  degraded : Bool := false
  deriving DecidableEq, Repr

/-- Bring-up beside the BUP registers: image RAM, whether the fuses could be read, TEST_N, VGLOW, the place in the rails'
order, sequencing retries, the cycle on which the step that runs started; tiles retired in service, the training record
in use and the records written; row repairs; clusters stopped by the clock monitor; resets in progress; the last
holders of clusters, granules and grotto cores, the fills that a commit has started with the granules they cover,
and the commits that run (R225, R327). -/
structure Bup where
  imageRam : Mem := []
  fusesRead : Bool := false
  testN : Bool := false
  vglow : Bool := false
  railNext : Nat := 0
  retries : Nat := 0
  stepFrom : Nat := 0
  retiredInService : List Nat := []
  record : Option TrainRec := none
  records : List TrainRec := []
  shifting : SMap RowRepair := []
  clockDead : List Nat := []
  resets : List ResetScope := []
  everHeld : List (Nat × Nat) := []
  fills : List FillTarget := []
  handed : List (Nat × Nat) := []
  commitBusy : List Nat := []
  deriving DecidableEq, Repr

/-- A glow-log entry (Table FLT-2) before TIME and SEQ. -/
structure GlowEntry where
  source : Nat
  code : Code
  data : Nat
  deriving DecidableEq, Repr

/-- The glow log (R394 to R400): the ring by slot, pending entries by source, the last source taken, whether LOG_LOST
has been logged since the last drain, and vector 5 in DMA mode: the cycle of the last one, whether one is owed. -/
structure Glow where
  slots : SMap (List Byte) := []
  pend : SMap GlowEntry := []
  lastSource : Nat := 0
  lostLogged : Bool := false
  lastVec : Option Nat := none
  vecOwed : Bool := false
  deriving DecidableEq, Repr

/-- Thermal and power control beside the THM, CLK and PWR registers (R405 to R429). Skip levels in effect, and those that
the next epoch mark brings; a running grace; whether the request is answered; the counts of rounds of R413 and R421 to
R424; an undo of division under way (whether its setpoint is reached); the modelled power of the last thousand rounds;
the pairs that differ; the last readings; by cluster the cool rounds of R203, and the slots per epoch before the last change
with its cycle (R202); the coolant inputs; PMBus reads missed; monitors below warning, those whose
warning runs with what they showed when they came back, whether it is sustained; since when all are back; the guest held
for its temperature; the shutdown latch; a sequencing failure; PPS_OUT. -/
structure Thermal where
  thermLvl : Nat := 0
  powerLvl : Nat := 0
  supplyLvl : Nat := 0
  thermNext : Nat := 0
  supplyNext : Nat := 0
  powerOver : Bool := false
  powerDrop : Nat := 0
  powerCalm : Nat := 0
  graceEnd : Option Nat := none
  answered : Bool := false
  reqCalm : Nat := 0
  hotRounds : Nat := 0
  coolRounds : Nat := 0
  divHot : Nat := 0
  divCool : Nat := 0
  undoDiv : Option Bool := none
  powers : List Nat := []
  disagree : SMap Nat := []
  lastReads : SMap Int := []
  refCool : SMap Nat := []
  slotsWere : SMap (Nat × Nat) := []
  silentI3c : Nat := 0
  flowKnown : Bool := false
  flowOk : Nat := 0
  lastCoolant : Option Nat := none
  pmbusMiss : SMap Nat := []
  low : List Nat := []
  warned : List Nat := []
  back : List (Nat × Nat × Nat) := []
  sustained : Bool := false
  calmFrom : Nat := 0
  guestHot : Bool := false
  stopped : Bool := false
  seqFail : Bool := false
  ppsOut : Bool := false
  deriving DecidableEq, Repr

/-- What a verified saddle image is known by: digest, key slot, SVN, half of image RAM. -/
structure Firmware where
  digest : BitVec 384
  slot : Nat
  svn : Nat
  half : Bool
  deriving DecidableEq, Repr

/-- The security engine, the saddle controller and the debug port beside their registers (R388, R431 to R445): fuses
burnt in service; the images running, kept during probation and awaiting their quiescent point; SCBEAT and the cycle of
its last advance; the code that stopped the controller; the cycles of its restarts; challenges, failed unlocks and their
lockout; the boundary register; the units that the debug port holds halted, each with the steps it has been granted (0 the saddle
controller, 1 + 2 × tile + core a spur core); since when no cairn record has been good. -/
structure Sec where
  keyRevBurnt : BitVec 4 := 0
  minSvnBurnt : Nat := 0
  running : Option Firmware := none
  kept : Option Firmware := none
  waiting : Option Firmware := none
  beatsLeft : Nat := 0
  verifiedAt : Nat := 0
  scBeat : Nat := 0
  beatAt : Nat := 0
  scStopped : Option Code := none
  restarts : List Nat := []
  nonce : Option (BitVec 384 × Nat) := none
  failures : Nat := 0
  lockedAt : Option Nat := none
  boundary : List Bool := []
  debugHeld : SMap Nat := []
  goodRecordAt : Nat := 0
  deriving DecidableEq, Repr

/-- One record in the cairn's history (R449). -/
structure CairnHist where
  seq : Nat
  status : Nat
  ctime : Nat
  cumul : Nat
  interval : Nat
  intms : Nat
  deriving DecidableEq, Repr

/-- The cairn (R446 to R453). -/
structure Cairn where
  powered : Bool := false
  ctime : Nat := 0
  lastRecord : Nat := 0
  cumul : Nat := 0
  seq : Nat := 0
  first : Bool := true
  calFault : Bool := false
  romFault : Bool := false
  overrange : Bool := false
  dip : Bool := false
  newEvents : Bool := false
  events : SMap (List Byte) := []
  eventCount : Nat := 0
  history : List CairnHist := []
  deriving DecidableEq, Repr

/-- The guest port beside the GST registers (R343 to R351): what is missing from the token bucket, in thirds of a
byte, as it stood on cycle `at_`, and the millisecond of the last refusal that was logged. -/
structure Guest where
  missing : Nat := 0
  at_ : Nat := 0
  deniedMs : Option Nat := none
  deriving DecidableEq, Repr

/-- A ridge module beside its registers (R335 to R341): lanes bad in each direction, fused ones included; the sides
whose receiver is being retested (`true` the peak's); retrained since its hold; the codes differed at the last
handshake; the codes have agreed since its hold. -/
structure Ridge where
  badPS : List Nat := []
  badSP : List Nat := []
  retest : List Bool := []
  retrained : Bool := false
  mismatch : Bool := false
  agreed : Bool := false
  deriving DecidableEq, Repr

/-- The roosting of a physical tile (R81, TILE_ROOST): whether it is awake, the cycle of its last wake or roost, the cycles
it has roosted before, its wakes. -/
structure Roost where
  awake : Bool := false
  since : Nat := 0
  cycles : Nat := 0
  wakes : Nat := 0
  deriving DecidableEq, Repr

/-- What the device sends to the outside (log entry 7). -/
inductive Msg where
  | vector (port : Bool) (vf : Nat) (v : Nat)
  | posted (port : Bool) (addr : Nat) (data : List Byte)
  | readReply (port : Bool) (data : Option (List Byte))
  | fabric (link : Nat) (c : Chunk)
  | guestReply (code : Code) (data : List Byte)
  | frame (link : Nat) (ack : Bool) (credit0 credit1 : Nat)
  | identity (link dev width : Nat)
  | width (link width : Nat)
  | echoRequest (link : Nat)
  | echoAnswer (link : Nat) (t2 t3 : Int) (hops : Nat) (locked : Bool) (e0 : Word)
  | ptm (port : Bool)
  | spdm (port : Bool) (answer : List Byte)
  | spdmUnsupported (port : Bool)
  | unsupported (port : Bool)
  | reader (type : Nat) (payload : List Byte)
  | debug (data : List Byte)
  | lands (pins : List Bool)
  | wake (tile : Nat) (w : Waiter)
  | avsbus (rail : Nat) (mv : Nat)
  | pmbus (rail : Nat) (on : Bool)
  | regReply (port : Bool) (data : Word)
  | stackReply (r : StackReq) (code : Option Code)
  deriving DecidableEq, Repr

/-- The device. -/
structure State where
  /-- The command queue, first in first out. -/
  pending : List Instr
  /-- Free values drawn so far (the model's own field, log entry 2). -/
  free : Nat
  /-- Physical faults present (the model's own field, log entry 4). -/
  flt : List PhysFault
  /-- What the device has sent, newest first (the model's own field, log entry 7). -/
  sent : List Msg
  /-- FCLK cycles since the clocks started. -/
  cyc : Nat
  /-- The FCLK cycle of the latest epoch mark (R188). -/
  markCyc : Nat
  /-- Registers by absolute PF0 BAR0 offset; port 1's HIF view at 2^32 above. ST fields hold staged values. -/
  regs : SMap Word
  /-- Values in effect of registers with ST fields (R12). -/
  eff : SMap Word
  tiles : SMap Tile
  /-- Roosting of tiles by physical index. -/
  roost : SMap Roost
  /-- Issue times of units: contexts by logical tile × 8 + context, grotto cores by 4,096 + AGENT. -/
  boards : SMap Board
  /-- Issue of cores: spur cores by logical tile × 2 + core, grotto cores by 1,024 + AGENT. -/
  cores : SMap CoreBoard
  /-- The cycle of the last device reset. -/
  resetAt : Nat
  grt : SMap Grotto
  hv : SMap Word
  hvSat : List Nat
  /-- For a host-visible counter the cycle of its latest write, and its value before the writes of that cycle (R273). -/
  hvWas : SMap (Nat × Nat)
  adds : List Add
  parts : SMap Part
  memStacks : SMap Stack
  mem : Mem
  hostMem0 : Mem
  hostMem1 : Mem
  guestMem : Mem
  ecc : SMap Ecc
  walks : List Walk
  arrivals : List TEntry
  links : SMap Link
  deliveries : List Delivery
  time : DevTime
  port0 : Port
  port1 : Port
  steward : Stewardship
  bup : Bup
  glow : Glow
  therm : Thermal
  sec : Sec
  cairn : Cairn
  guest : Guest
  ridge : SMap Ridge
  deriving DecidableEq, Repr

/-- The state right after reset: VGLOW absent, every register at its reset value, nothing loaded. -/
def State.reset : State where
  pending := []
  free := 0
  flt := []
  sent := []
  cyc := 0
  markCyc := 0
  regs := []
  eff := []
  tiles := []
  roost := []
  boards := []
  cores := []
  resetAt := 0
  grt := []
  hv := []
  hvSat := []
  hvWas := []
  adds := []
  parts := []
  memStacks := []
  mem := []
  hostMem0 := []
  hostMem1 := []
  guestMem := []
  ecc := []
  walks := []
  arrivals := []
  links := []
  deliveries := []
  time := {}
  port0 := {}
  port1 := {}
  steward := {}
  bup := {}
  glow := {}
  therm := {}
  sec := {}
  cairn := {}
  guest := {}
  ridge := []

end Sys2Proof.Machine
end

