-- ==== Sys2Proof/Machine/Regs.lean ====
section
/-! DEFINITION. The registers: blocks of PF0 BAR0 (Table HIF-2), the fields of each register with their access
codes (Table SCP-4) and reset values, as the register headings of the spec give them. -/
namespace Sys2Proof.Machine

/-- A block of registers. `hif port` is the port's own view (R314). -/
inductive Blk where
  | hif (port : Bool) | bup | rst | clk | thm | ras | sec | crn | d2d | gst
  | memc (s : Nat) | grt (s : Nat) | fab | time | part (p : Nat) | kvp (p : Nat) | tile (h : Nat) | hvc (g : Nat)
  deriving DecidableEq, Repr

/-- The offset of a block in PF0 BAR0 (Table HIF-2); port 1's HIF view is kept 2^32 above. -/
def Blk.base : Blk → Nat
  | .hif port => if port then 0x100000000 else 0
  | .bup => 0x100000
  | .rst => 0x200000
  | .clk => 0x300000
  | .thm => 0x400000
  | .ras => 0x500000
  | .sec => 0x600000
  | .crn => 0x700000
  | .d2d => 0x800000
  | .gst => 0x900000
  | .memc s => 0xA00000 + 0x20000 * s
  | .grt s => 0xC00000 + 0x80000 * s
  | .fab => 0xE00000
  | .time => 0x1000000
  | .part p => 0x1100000 + 0x8000 * p
  | .kvp p => 0x1200000 + 0x10000 * p
  | .tile h => 0x1400000 + 0x2000 * h
  | .hvc g => 0x1C00000 + 0x10000 * g

/-- Access codes (Table SCP-4); `res` is a reserved field. -/
inductive FAcc where
  | res | ro | rw | wo | w1c | sc | st
  deriving DecidableEq, Repr

/-- A field of a register. -/
structure RField where
  hi : Nat
  lo : Nat
  acc : FAcc
  deriving DecidableEq, Repr

/-- A register: reset value and fields, from the lowest bit. -/
structure RegDesc where
  reset : Nat
  fields : List RField
  deriving DecidableEq, Repr

/-- TILE_ID. -/
def dTileId : RegDesc := ⟨0x3FF00000000, [⟨4, 0, .ro⟩, ⟨11, 5, .res⟩, ⟨15, 12, .ro⟩, ⟨16, 16, .ro⟩, ⟨18, 17, .res⟩, ⟨21, 19, .ro⟩, ⟨31, 22, .ro⟩, ⟨41, 32, .ro⟩, ⟨63, 42, .res⟩]⟩
/-- The offset of TILE_ID in its block. -/
def rTileId : Nat := 0x0
/-- TILE_ERRCODE. -/
def dTileErrcode : RegDesc := ⟨0x0, [⟨15, 0, .ro⟩, ⟨16, 16, .w1c⟩, ⟨63, 17, .res⟩]⟩
/-- The offset of TILE_ERRCODE in its block. -/
def rTileErrcode : Nat := 0x8
/-- TILE_MX_CAP. -/
def dTileMxCap : RegDesc := ⟨0xFF00, [⟨0, 0, .ro⟩, ⟨1, 1, .ro⟩, ⟨2, 2, .ro⟩, ⟨7, 3, .res⟩, ⟨15, 8, .ro⟩, ⟨23, 16, .ro⟩, ⟨31, 24, .ro⟩, ⟨39, 32, .ro⟩, ⟨63, 40, .res⟩]⟩
/-- The offset of TILE_MX_CAP in its block. -/
def rTileMxCap : Nat := 0x400
/-- TILE_MX_CTRL. -/
def dTileMxCtrl : RegDesc := ⟨0x7, [⟨0, 0, .rw⟩, ⟨1, 1, .rw⟩, ⟨2, 2, .rw⟩, ⟨3, 3, .sc⟩, ⟨63, 4, .res⟩]⟩
/-- The offset of TILE_MX_CTRL in its block. -/
def rTileMxCtrl : Nat := 0x408
/-- TILE_MX_STATUS. -/
def dTileMxStatus : RegDesc := ⟨0x0, [⟨0, 0, .w1c⟩, ⟨1, 1, .res⟩, ⟨2, 2, .w1c⟩, ⟨3, 3, .ro⟩, ⟨7, 4, .res⟩, ⟨11, 8, .ro⟩, ⟨47, 12, .res⟩, ⟨63, 48, .ro⟩]⟩
/-- The offset of TILE_MX_STATUS in its block. -/
def rTileMxStatus : Nat := 0x410
/-- TILE_MX_CHKCNT. -/
def dTileMxChkcnt : RegDesc := ⟨0x0, [⟨31, 0, .ro⟩, ⟨63, 32, .ro⟩]⟩
/-- The offset of TILE_MX_CHKCNT in its block. -/
def rTileMxChkcnt : Nat := 0x418
/-- TILE_MX_KATAGE. -/
def dTileMxKatage : RegDesc := ⟨0xFFFFFFFF, [⟨31, 0, .ro⟩, ⟨63, 32, .res⟩]⟩
/-- The offset of TILE_MX_KATAGE in its block. -/
def rTileMxKatage : Nat := 0x420
/-- TILE_MX_COLBAD0. -/
def dTileMxColbad0 : RegDesc := ⟨0x0, [⟨63, 0, .ro⟩]⟩
/-- The offset of TILE_MX_COLBAD0 in its block. -/
def rTileMxColbad0 : Nat := 0x428
/-- TILE_MX_COLBAD1. -/
def dTileMxColbad1 : RegDesc := ⟨0x0, [⟨63, 0, .ro⟩]⟩
/-- The offset of TILE_MX_COLBAD1 in its block. -/
def rTileMxColbad1 : Nat := 0x430
/-- TILE_MX_COLBAD2. -/
def dTileMxColbad2 : RegDesc := ⟨0x0, [⟨0, 0, .ro⟩, ⟨63, 1, .res⟩]⟩
/-- The offset of TILE_MX_COLBAD2 in its block. -/
def rTileMxColbad2 : Nat := 0x438
/-- TILE_CTX_CSWn. -/
def dTileCtxCswn : RegDesc := ⟨0x0, [⟨31, 0, .ro⟩, ⟨33, 32, .ro⟩, ⟨35, 34, .res⟩, ⟨39, 36, .ro⟩, ⟨47, 40, .res⟩, ⟨63, 48, .ro⟩]⟩
/-- The offset of TILE_CTX_CSWn in its block. -/
def rTileCtxCswn (n : Nat) : Nat := 0x100 + 0x8 * n
/-- TILE_CTX_CTRL. -/
def dTileCtxCtrl : RegDesc := ⟨0xFF, [⟨7, 0, .rw⟩, ⟨15, 8, .sc⟩, ⟨63, 16, .res⟩]⟩
/-- The offset of TILE_CTX_CTRL in its block. -/
def rTileCtxCtrl : Nat := 0x140
/-- TILE_Q_STATEq. -/
def dTileQStateq : RegDesc := ⟨0x0, [⟨33, 0, .ro⟩, ⟨36, 34, .res⟩, ⟨39, 37, .ro⟩, ⟨41, 40, .ro⟩, ⟨47, 42, .ro⟩, ⟨63, 48, .ro⟩]⟩
/-- The offset of TILE_Q_STATEq in its block. -/
def rTileQStateq (q : Nat) : Nat := 0x180 + 0x8 * q
/-- TILE_Q_CTRL. -/
def dTileQCtrl : RegDesc := ⟨0x70, [⟨2, 0, .sc⟩, ⟨3, 3, .res⟩, ⟨6, 4, .rw⟩, ⟨63, 7, .res⟩]⟩
/-- The offset of TILE_Q_CTRL in its block. -/
def rTileQCtrl : Nat := 0x198
/-- TILE_ROOST. -/
def dTileRoost : RegDesc := ⟨0x0, [⟨0, 0, .ro⟩, ⟨1, 1, .ro⟩, ⟨2, 2, .ro⟩, ⟨7, 3, .res⟩, ⟨31, 8, .ro⟩, ⟨63, 32, .ro⟩]⟩
/-- The offset of TILE_ROOST in its block. -/
def rTileRoost : Nat := 0x1A0
/-- TILE_CNT_VALn. -/
def dTileCntValn : RegDesc := ⟨0x0, [⟨63, 0, .ro⟩]⟩
/-- The offset of TILE_CNT_VALn in its block. -/
def rTileCntValn (n : Nat) : Nat := 0x800 + 0x8 * n
/-- TILE_CNT_SAT0. -/
def dTileCntSat0 : RegDesc := ⟨0x0, [⟨63, 0, .ro⟩]⟩
/-- The offset of TILE_CNT_SAT0 in its block. -/
def rTileCntSat0 : Nat := 0xC00
/-- TILE_CNT_SAT1. -/
def dTileCntSat1 : RegDesc := ⟨0x0, [⟨63, 0, .ro⟩]⟩
/-- The offset of TILE_CNT_SAT1 in its block. -/
def rTileCntSat1 : Nat := 0xC08
/-- TILE_CNT_MISS. -/
def dTileCntMiss : RegDesc := ⟨0x0, [⟨31, 0, .ro⟩, ⟨63, 32, .res⟩]⟩
/-- The offset of TILE_CNT_MISS in its block. -/
def rTileCntMiss : Nat := 0xC10
/-- TILE_SL_STATE. -/
def dTileSlState : RegDesc := ⟨0x10100, [⟨0, 0, .ro⟩, ⟨1, 1, .ro⟩, ⟨3, 2, .res⟩, ⟨7, 4, .ro⟩, ⟨11, 8, .ro⟩, ⟨15, 12, .res⟩, ⟨20, 16, .ro⟩, ⟨31, 21, .res⟩, ⟨39, 32, .ro⟩, ⟨63, 40, .res⟩]⟩
/-- The offset of TILE_SL_STATE in its block. -/
def rTileSlState : Nat := 0x500
/-- TILE_SL_ROWRET. -/
def dTileSlRowret : RegDesc := ⟨0x0, [⟨15, 0, .ro⟩, ⟨27, 16, .rw⟩, ⟨31, 28, .rw⟩, ⟨33, 32, .rw⟩, ⟨47, 34, .res⟩, ⟨53, 48, .ro⟩, ⟨57, 54, .res⟩, ⟨59, 58, .ro⟩, ⟨62, 60, .res⟩, ⟨63, 63, .sc⟩]⟩
/-- The offset of TILE_SL_ROWRET in its block. -/
def rTileSlRowret : Nat := 0x508
/-- TILE_SL_SCRUB. -/
def dTileSlScrub : RegDesc := ⟨0x0, [⟨0, 0, .sc⟩, ⟨1, 1, .sc⟩, ⟨7, 2, .res⟩, ⟨15, 8, .rw⟩, ⟨27, 16, .res⟩, ⟨45, 28, .rw⟩, ⟨63, 46, .rw⟩]⟩
/-- The offset of TILE_SL_SCRUB in its block. -/
def rTileSlScrub : Nat := 0x510
/-- TILE_SL_SCRUBSTAT. -/
def dTileSlScrubstat : RegDesc := ⟨0x0, [⟨23, 0, .ro⟩, ⟨39, 24, .ro⟩, ⟨61, 40, .ro⟩, ⟨63, 62, .ro⟩]⟩
/-- The offset of TILE_SL_SCRUBSTAT in its block. -/
def rTileSlScrubstat : Nat := 0x518
/-- TILE_DRIP. -/
def dTileDrip : RegDesc := ⟨0x0, [⟨0, 0, .sc⟩, ⟨1, 1, .sc⟩, ⟨15, 2, .res⟩, ⟨23, 16, .ro⟩, ⟨39, 24, .ro⟩, ⟨47, 40, .ro⟩, ⟨63, 48, .ro⟩]⟩
/-- The offset of TILE_DRIP in its block. -/
def rTileDrip : Nat := 0x520
/-- TILE_DRIPCFG. -/
def dTileDripcfg : RegDesc := ⟨0x3E80040, [⟨7, 0, .rw⟩, ⟨15, 8, .res⟩, ⟨31, 16, .rw⟩, ⟨63, 32, .res⟩]⟩
/-- The offset of TILE_DRIPCFG in its block. -/
def rTileDripcfg : Nat := 0x528
/-- TILE_INJADDR. -/
def dTileInjaddr : RegDesc := ⟨0x0, [⟨1, 0, .res⟩, ⟨27, 2, .rw⟩, ⟨60, 28, .res⟩, ⟨61, 61, .rw⟩, ⟨62, 62, .sc⟩, ⟨63, 63, .rw⟩]⟩
/-- The offset of TILE_INJADDR in its block. -/
def rTileInjaddr : Nat := 0x530
/-- TILE_INJMASK. -/
def dTileInjmask : RegDesc := ⟨0x0, [⟨31, 0, .rw⟩, ⟨63, 32, .rw⟩]⟩
/-- The offset of TILE_INJMASK in its block. -/
def rTileInjmask : Nat := 0x538

/-- The registers of the tile block by offset. -/
def descTile (o : Nat) : Option RegDesc :=
  if o = 0x0 then some dTileId
  else if o = 0x8 then some dTileErrcode
  else if o = 0x400 then some dTileMxCap
  else if o = 0x408 then some dTileMxCtrl
  else if o = 0x410 then some dTileMxStatus
  else if o = 0x418 then some dTileMxChkcnt
  else if o = 0x420 then some dTileMxKatage
  else if o = 0x428 then some dTileMxColbad0
  else if o = 0x430 then some dTileMxColbad1
  else if o = 0x438 then some dTileMxColbad2
  else if 0x100 ≤ o ∧ o < 0x140 ∧ (o - 0x100) % 0x8 = 0 then some dTileCtxCswn
  else if o = 0x140 then some dTileCtxCtrl
  else if 0x180 ≤ o ∧ o < 0x198 ∧ (o - 0x180) % 0x8 = 0 then some dTileQStateq
  else if o = 0x198 then some dTileQCtrl
  else if o = 0x1A0 then some dTileRoost
  else if 0x800 ≤ o ∧ o < 0xC00 ∧ (o - 0x800) % 0x8 = 0 then some dTileCntValn
  else if o = 0xC00 then some dTileCntSat0
  else if o = 0xC08 then some dTileCntSat1
  else if o = 0xC10 then some dTileCntMiss
  else if o = 0x500 then some dTileSlState
  else if o = 0x508 then some dTileSlRowret
  else if o = 0x510 then some dTileSlScrub
  else if o = 0x518 then some dTileSlScrubstat
  else if o = 0x520 then some dTileDrip
  else if o = 0x528 then some dTileDripcfg
  else if o = 0x530 then some dTileInjaddr
  else if o = 0x538 then some dTileInjmask
  else none

/-- PART_TRVBASE. -/
def dPartTrvbase : RegDesc := ⟨0x0, [⟨5, 0, .res⟩, ⟨51, 6, .rw⟩, ⟨63, 52, .res⟩]⟩
/-- The offset of PART_TRVBASE in its block. -/
def rPartTrvbase : Nat := 0x100
/-- PART_TRVCTRL. -/
def dPartTrvctrl : RegDesc := ⟨0x0, [⟨0, 0, .sc⟩, ⟨1, 1, .sc⟩, ⟨2, 2, .sc⟩, ⟨3, 3, .sc⟩, ⟨63, 4, .res⟩]⟩
/-- The offset of PART_TRVCTRL in its block. -/
def rPartTrvctrl : Nat := 0x108
/-- PART_TRVSTAT. -/
def dPartTrvstat : RegDesc := ⟨0xFFFFFFFF, [⟨31, 0, .ro⟩, ⟨34, 32, .ro⟩, ⟨47, 35, .res⟩, ⟨63, 48, .ro⟩]⟩
/-- The offset of PART_TRVSTAT in its block. -/
def rPartTrvstat : Nat := 0x110
/-- PART_TRVSTEP. -/
def dPartTrvstep : RegDesc := ⟨0x0, [⟨31, 0, .ro⟩, ⟨63, 32, .ro⟩]⟩
/-- The offset of PART_TRVSTEP in its block. -/
def rPartTrvstep : Nat := 0x118
/-- PART_DBRKCNT. -/
def dPartDbrkcnt : RegDesc := ⟨0x0, [⟨31, 0, .ro⟩, ⟨63, 32, .res⟩]⟩
/-- The offset of PART_DBRKCNT in its block. -/
def rPartDbrkcnt : Nat := 0x200
/-- PART_DBRKLAST. -/
def dPartDbrklast : RegDesc := ⟨0xFFFFF000, [⟨7, 0, .ro⟩, ⟨11, 8, .res⟩, ⟨15, 12, .ro⟩, ⟨31, 16, .ro⟩, ⟨63, 32, .ro⟩]⟩
/-- The offset of PART_DBRKLAST in its block. -/
def rPartDbrklast : Nat := 0x208
/-- PART_DBRKEPOCH. -/
def dPartDbrkepoch : RegDesc := ⟨0x0, [⟨63, 0, .ro⟩]⟩
/-- The offset of PART_DBRKEPOCH in its block. -/
def rPartDbrkepoch : Nat := 0x210
/-- PART_DBRKCTRL. -/
def dPartDbrkctrl : RegDesc := ⟨0xFFFE, [⟨0, 0, .res⟩, ⟨15, 1, .rw⟩, ⟨63, 16, .res⟩]⟩
/-- The offset of PART_DBRKCTRL in its block. -/
def rPartDbrkctrl : Nat := 0x218
/-- PART_WITHHOLD. -/
def dPartWithhold : RegDesc := ⟨0x0, [⟨15, 0, .ro⟩, ⟨16, 16, .w1c⟩, ⟨31, 17, .res⟩, ⟨63, 32, .ro⟩]⟩
/-- The offset of PART_WITHHOLD in its block. -/
def rPartWithhold : Nat := 0x220
/-- PART_PAUSE. -/
def dPartPause : RegDesc := ⟨0x0, [⟨0, 0, .ro⟩, ⟨31, 1, .res⟩, ⟨63, 32, .ro⟩]⟩
/-- The offset of PART_PAUSE in its block. -/
def rPartPause : Nat := 0x228
/-- PART_RUNEPOCH. -/
def dPartRunepoch : RegDesc := ⟨0x0, [⟨61, 0, .rw⟩, ⟨62, 62, .ro⟩, ⟨63, 63, .rw⟩]⟩
/-- The offset of PART_RUNEPOCH in its block. -/
def rPartRunepoch : Nat := 0x230
/-- PART_ERRCODE. -/
def dPartErrcode : RegDesc := ⟨0x0, [⟨15, 0, .ro⟩, ⟨16, 16, .w1c⟩, ⟨63, 17, .res⟩]⟩
/-- The offset of PART_ERRCODE in its block. -/
def rPartErrcode : Nat := 0x8
/-- PART_COMMIT. -/
def dPartCommit : RegDesc := ⟨0x0, [⟨15, 0, .ro⟩, ⟨55, 16, .res⟩, ⟨57, 56, .ro⟩, ⟨60, 58, .res⟩, ⟨61, 61, .ro⟩, ⟨62, 62, .sc⟩, ⟨63, 63, .sc⟩]⟩
/-- The offset of PART_COMMIT in its block. -/
def rPartCommit : Nat := 0x10
/-- PART_VECEN. -/
def dPartVecen : RegDesc := ⟨0x7FFFF, [⟨18, 0, .rw⟩, ⟨63, 19, .res⟩]⟩
/-- The offset of PART_VECEN in its block. -/
def rPartVecen : Nat := 0x18
/-- PART_COMP. -/
def dPartComp : RegDesc := ⟨0x0, [⟨31, 0, .st⟩, ⟨32, 32, .st⟩, ⟨62, 33, .res⟩, ⟨63, 63, .st⟩]⟩
/-- The offset of PART_COMP in its block. -/
def rPartComp : Nat := 0x20
/-- PART_HVCG. -/
def dPartHvcg : RegDesc := ⟨0x0, [⟨63, 0, .st⟩]⟩
/-- The offset of PART_HVCG in its block. -/
def rPartHvcg : Nat := 0x28
/-- PART_QCFGq. -/
def dPartQcfgq : RegDesc := ⟨0x4440000000000000, [⟨11, 0, .st⟩, ⟨23, 12, .st⟩, ⟨35, 24, .st⟩, ⟨47, 36, .st⟩, ⟨51, 48, .res⟩, ⟨55, 52, .st⟩, ⟨59, 56, .st⟩, ⟨61, 60, .res⟩, ⟨62, 62, .rw⟩, ⟨63, 63, .st⟩]⟩
/-- The offset of PART_QCFGq in its block. -/
def rPartQcfgq (q : Nat) : Nat := 0x400 + 0x20 * q
/-- PART_QJOBq. -/
def dPartQjobq : RegDesc := ⟨0x0, [⟨5, 0, .res⟩, ⟨47, 6, .st⟩, ⟨63, 48, .res⟩]⟩
/-- The offset of PART_QJOBq in its block. -/
def rPartQjobq (q : Nat) : Nat := 0x408 + 0x20 * q
/-- PART_QCPLq. -/
def dPartQcplq : RegDesc := ⟨0x0, [⟨4, 0, .res⟩, ⟨45, 5, .st⟩, ⟨63, 46, .res⟩]⟩
/-- The offset of PART_QCPLq in its block. -/
def rPartQcplq (q : Nat) : Nat := 0x410 + 0x20 * q
/-- PART_QSTATq. -/
def dPartQstatq : RegDesc := ⟨0x0, [⟨0, 0, .w1c⟩, ⟨1, 1, .w1c⟩, ⟨2, 2, .ro⟩, ⟨11, 3, .res⟩, ⟨15, 12, .ro⟩, ⟨31, 16, .ro⟩, ⟨63, 32, .ro⟩]⟩
/-- The offset of PART_QSTATq in its block. -/
def rPartQstatq (q : Nat) : Nat := 0x418 + 0x20 * q
/-- PART_REPAIR. -/
def dPartRepair : RegDesc := ⟨0x7FFF00000, [⟨0, 0, .ro⟩, ⟨1, 1, .w1c⟩, ⟨2, 2, .ro⟩, ⟨3, 3, .ro⟩, ⟨4, 4, .ro⟩, ⟨19, 5, .res⟩, ⟨29, 20, .ro⟩, ⟨34, 30, .ro⟩, ⟨39, 35, .ro⟩, ⟨47, 40, .res⟩, ⟨63, 48, .ro⟩]⟩
/-- The offset of PART_REPAIR in its block. -/
def rPartRepair : Nat := 0x300
/-- PART_REFILL. -/
def dPartRefill : RegDesc := ⟨0x0, [⟨5, 0, .res⟩, ⟨51, 6, .st⟩, ⟨62, 52, .res⟩, ⟨63, 63, .st⟩]⟩
/-- The offset of PART_REFILL in its block. -/
def rPartRefill : Nat := 0x308
/-- PART_RESET. -/
def dPartReset : RegDesc := ⟨0x0, [⟨15, 0, .ro⟩, ⟨61, 16, .res⟩, ⟨62, 62, .ro⟩, ⟨63, 63, .sc⟩]⟩
/-- The offset of PART_RESET in its block. -/
def rPartReset : Nat := 0x310

/-- The registers of the part block by offset. -/
def descPart (o : Nat) : Option RegDesc :=
  if o = 0x100 then some dPartTrvbase
  else if o = 0x108 then some dPartTrvctrl
  else if o = 0x110 then some dPartTrvstat
  else if o = 0x118 then some dPartTrvstep
  else if o = 0x200 then some dPartDbrkcnt
  else if o = 0x208 then some dPartDbrklast
  else if o = 0x210 then some dPartDbrkepoch
  else if o = 0x218 then some dPartDbrkctrl
  else if o = 0x220 then some dPartWithhold
  else if o = 0x228 then some dPartPause
  else if o = 0x230 then some dPartRunepoch
  else if o = 0x8 then some dPartErrcode
  else if o = 0x10 then some dPartCommit
  else if o = 0x18 then some dPartVecen
  else if o = 0x20 then some dPartComp
  else if o = 0x28 then some dPartHvcg
  else if 0x400 ≤ o ∧ o < 0x600 ∧ (o - 0x400) % 0x20 = 0 then some dPartQcfgq
  else if 0x408 ≤ o ∧ o < 0x608 ∧ (o - 0x408) % 0x20 = 0 then some dPartQjobq
  else if 0x410 ≤ o ∧ o < 0x610 ∧ (o - 0x410) % 0x20 = 0 then some dPartQcplq
  else if 0x418 ≤ o ∧ o < 0x618 ∧ (o - 0x418) % 0x20 = 0 then some dPartQstatq
  else if o = 0x300 then some dPartRepair
  else if o = 0x308 then some dPartRefill
  else if o = 0x310 then some dPartReset
  else none

/-- HVC_VAL. -/
def dHvcVal : RegDesc := ⟨0x0, [⟨63, 0, .ro⟩]⟩
/-- The offset of HVC_VAL in its block. -/
def rHvcVal (i : Nat) : Nat := 0x0 + 0x20 * i
/-- HVC_ADD. -/
def dHvcAdd : RegDesc := ⟨0x0, [⟨63, 0, .wo⟩]⟩
/-- The offset of HVC_ADD in its block. -/
def rHvcAdd (i : Nat) : Nat := 0x8 + 0x20 * i
/-- HVC_FLAG. -/
def dHvcFlag : RegDesc := ⟨0x0, [⟨0, 0, .ro⟩, ⟨63, 1, .res⟩]⟩
/-- The offset of HVC_FLAG in its block. -/
def rHvcFlag (i : Nat) : Nat := 0x10 + 0x20 * i
/-- HVC_OWNER. -/
def dHvcOwner : RegDesc := ⟨0x0, [⟨4, 0, .ro⟩, ⟨5, 5, .ro⟩, ⟨7, 6, .res⟩, ⟨8, 8, .ro⟩, ⟨63, 9, .res⟩]⟩
/-- The offset of HVC_OWNER in its block. -/
def rHvcOwner : Nat := 0xF000
/-- HVC_ERRCODE. -/
def dHvcErrcode : RegDesc := ⟨0x0, [⟨15, 0, .ro⟩, ⟨16, 16, .w1c⟩, ⟨63, 17, .res⟩]⟩
/-- The offset of HVC_ERRCODE in its block. -/
def rHvcErrcode : Nat := 0xF008

/-- The registers of the hvc block by offset. -/
def descHvc (o : Nat) : Option RegDesc :=
  if 0x0 ≤ o ∧ o < 0x800 ∧ (o - 0x0) % 0x20 = 0 then some dHvcVal
  else if 0x8 ≤ o ∧ o < 0x808 ∧ (o - 0x8) % 0x20 = 0 then some dHvcAdd
  else if 0x10 ≤ o ∧ o < 0x810 ∧ (o - 0x10) % 0x20 = 0 then some dHvcFlag
  else if o = 0xF000 then some dHvcOwner
  else if o = 0xF008 then some dHvcErrcode
  else none

/-- TIME_EPOCHNUM. -/
def dTimeEpochnum : RegDesc := ⟨0x0, [⟨63, 0, .ro⟩]⟩
/-- The offset of TIME_EPOCHNUM in its block. -/
def rTimeEpochnum : Nat := 0x800
/-- TIME_EPOCHOFS. -/
def dTimeEpochofs : RegDesc := ⟨0x0, [⟨31, 0, .ro⟩, ⟨47, 32, .ro⟩, ⟨63, 48, .res⟩]⟩
/-- The offset of TIME_EPOCHOFS in its block. -/
def rTimeEpochofs : Nat := 0x808
/-- TIME_NOW. -/
def dTimeNow : RegDesc := ⟨0x0, [⟨63, 0, .ro⟩]⟩
/-- The offset of TIME_NOW in its block. -/
def rTimeNow : Nat := 0x0
/-- TIME_NOWFRAC. -/
def dTimeNowfrac : RegDesc := ⟨0x0, [⟨15, 0, .ro⟩, ⟨63, 16, .res⟩]⟩
/-- The offset of TIME_NOWFRAC in its block. -/
def rTimeNowfrac : Nat := 0x8
/-- TIME_CTRL. -/
def dTimeCtrl : RegDesc := ⟨0x0, [⟨1, 0, .rw⟩, ⟨3, 2, .rw⟩, ⟨7, 4, .res⟩, ⟨8, 8, .rw⟩, ⟨14, 9, .rw⟩, ⟨15, 15, .rw⟩, ⟨21, 16, .rw⟩, ⟨63, 22, .res⟩]⟩
/-- The offset of TIME_CTRL in its block. -/
def rTimeCtrl : Nat := 0x10
/-- TIME_STAT. -/
def dTimeStat : RegDesc := ⟨0x0, [⟨2, 0, .ro⟩, ⟨11, 3, .res⟩, ⟨15, 12, .ro⟩, ⟨31, 16, .ro⟩, ⟨63, 32, .ro⟩]⟩
/-- The offset of TIME_STAT in its block. -/
def rTimeStat : Nat := 0x18
/-- TIME_PTMOFS. -/
def dTimePtmofs : RegDesc := ⟨0x0, [⟨63, 0, .rw⟩]⟩
/-- The offset of TIME_PTMOFS in its block. -/
def rTimePtmofs : Nat := 0x20
/-- TIME_E0. -/
def dTimeE0 : RegDesc := ⟨0x0, [⟨63, 0, .rw⟩]⟩
/-- The offset of TIME_E0 in its block. -/
def rTimeE0 : Nat := 0x28
/-- TIME_SET. -/
def dTimeSet : RegDesc := ⟨0x0, [⟨63, 0, .wo⟩]⟩
/-- The offset of TIME_SET in its block. -/
def rTimeSet : Nat := 0x30
/-- TIME_PPSCTRL. -/
def dTimePpsctrl : RegDesc := ⟨0x190, [⟨0, 0, .rw⟩, ⟨1, 1, .res⟩, ⟨11, 2, .rw⟩, ⟨31, 12, .res⟩, ⟨63, 32, .rw⟩]⟩
/-- The offset of TIME_PPSCTRL in its block. -/
def rTimePpsctrl : Nat := 0x38
/-- TIME_PPSIN. -/
def dTimePpsin : RegDesc := ⟨0x0, [⟨63, 0, .ro⟩]⟩
/-- The offset of TIME_PPSIN in its block. -/
def rTimePpsin : Nat := 0x40
/-- TIME_PPSINFRAC. -/
def dTimePpsinfrac : RegDesc := ⟨0x0, [⟨15, 0, .ro⟩, ⟨16, 16, .w1c⟩, ⟨63, 17, .res⟩]⟩
/-- The offset of TIME_PPSINFRAC in its block. -/
def rTimePpsinfrac : Nat := 0x48

/-- The registers of the time block by offset. -/
def descTime (o : Nat) : Option RegDesc :=
  if o = 0x800 then some dTimeEpochnum
  else if o = 0x808 then some dTimeEpochofs
  else if o = 0x0 then some dTimeNow
  else if o = 0x8 then some dTimeNowfrac
  else if o = 0x10 then some dTimeCtrl
  else if o = 0x18 then some dTimeStat
  else if o = 0x20 then some dTimePtmofs
  else if o = 0x28 then some dTimeE0
  else if o = 0x30 then some dTimeSet
  else if o = 0x38 then some dTimePpsctrl
  else if o = 0x40 then some dTimePpsin
  else if o = 0x48 then some dTimePpsinfrac
  else none

/-- MEMC_STATE. -/
def dMemcState : RegDesc := ⟨0x100, [⟨2, 0, .ro⟩, ⟨3, 3, .ro⟩, ⟨7, 4, .ro⟩, ⟨11, 8, .ro⟩, ⟨15, 12, .res⟩, ⟨23, 16, .ro⟩, ⟨63, 24, .res⟩]⟩
/-- The offset of MEMC_STATE in its block. -/
def rMemcState : Nat := 0x0
/-- MEMC_ERRCODE. -/
def dMemcErrcode : RegDesc := ⟨0x0, [⟨15, 0, .ro⟩, ⟨16, 16, .w1c⟩, ⟨63, 17, .res⟩]⟩
/-- The offset of MEMC_ERRCODE in its block. -/
def rMemcErrcode : Nat := 0x8
/-- MEMC_DRIPCFG. -/
def dMemcDripcfg : RegDesc := ⟨0x3E80040, [⟨7, 0, .rw⟩, ⟨15, 8, .res⟩, ⟨31, 16, .rw⟩, ⟨63, 32, .res⟩]⟩
/-- The offset of MEMC_DRIPCFG in its block. -/
def rMemcDripcfg : Nat := 0x100
/-- MEMC_DRIPc. -/
def dMemcDripc : RegDesc := ⟨0x0, [⟨0, 0, .sc⟩, ⟨7, 1, .res⟩, ⟨15, 8, .ro⟩, ⟨31, 16, .ro⟩, ⟨63, 32, .res⟩]⟩
/-- The offset of MEMC_DRIPc in its block. -/
def rMemcDripc (c : Nat) : Nat := 0x200 + 0x8 * c
/-- MEMC_SCRUB. -/
def dMemcScrub : RegDesc := ⟨0x0, [⟨0, 0, .sc⟩, ⟨1, 1, .sc⟩, ⟨7, 2, .res⟩, ⟨15, 8, .rw⟩, ⟨39, 16, .rw⟩, ⟨63, 40, .rw⟩]⟩
/-- The offset of MEMC_SCRUB in its block. -/
def rMemcScrub : Nat := 0x300
/-- MEMC_SCRUBSTAT. -/
def dMemcScrubstat : RegDesc := ⟨0x0, [⟨31, 0, .ro⟩, ⟨47, 32, .ro⟩, ⟨61, 48, .res⟩, ⟨63, 62, .ro⟩]⟩
/-- The offset of MEMC_SCRUBSTAT in its block. -/
def rMemcScrubstat : Nat := 0x308
/-- MEMC_SCRUBFIRST. -/
def dMemcScrubfirst : RegDesc := ⟨0x0, [⟨35, 0, .ro⟩, ⟨62, 36, .res⟩, ⟨63, 63, .ro⟩]⟩
/-- The offset of MEMC_SCRUBFIRST in its block. -/
def rMemcScrubfirst : Nat := 0x310
/-- MEMC_BANKRET. -/
def dMemcBankret : RegDesc := ⟨0x2000000000000, [⟨15, 0, .ro⟩, ⟨21, 16, .rw⟩, ⟨23, 22, .res⟩, ⟨28, 24, .rw⟩, ⟨48, 29, .res⟩, ⟨49, 49, .ro⟩, ⟨57, 50, .res⟩, ⟨59, 58, .ro⟩, ⟨62, 60, .res⟩, ⟨63, 63, .sc⟩]⟩
/-- The offset of MEMC_BANKRET in its block. -/
def rMemcBankret : Nat := 0x400
/-- MEMC_INJADDR. -/
def dMemcInjaddr : RegDesc := ⟨0x0, [⟨1, 0, .res⟩, ⟨35, 2, .rw⟩, ⟨59, 36, .res⟩, ⟨61, 60, .rw⟩, ⟨62, 62, .sc⟩, ⟨63, 63, .rw⟩]⟩
/-- The offset of MEMC_INJADDR in its block. -/
def rMemcInjaddr : Nat := 0x500
/-- MEMC_INJMASK. -/
def dMemcInjmask : RegDesc := ⟨0x0, [⟨31, 0, .rw⟩, ⟨63, 32, .rw⟩]⟩
/-- The offset of MEMC_INJMASK in its block. -/
def rMemcInjmask : Nat := 0x508
/-- MEMC_MARGCTRL. -/
def dMemcMargctrl : RegDesc := ⟨0xC, [⟨0, 0, .sc⟩, ⟨1, 1, .ro⟩, ⟨3, 2, .rw⟩, ⟨63, 4, .res⟩]⟩
/-- The offset of MEMC_MARGCTRL in its block. -/
def rMemcMargctrl : Nat := 0x600
/-- MEMC_MARGINc. -/
def dMemcMarginc : RegDesc := ⟨0x0, [⟨7, 0, .ro⟩, ⟨15, 8, .ro⟩, ⟨23, 16, .ro⟩, ⟨31, 24, .ro⟩, ⟨61, 32, .res⟩, ⟨62, 62, .ro⟩, ⟨63, 63, .ro⟩]⟩
/-- The offset of MEMC_MARGINc in its block. -/
def rMemcMarginc (c : Nat) : Nat := 0x700 + 0x8 * c
/-- MEMC_RANGEr. -/
def dMemcRanger : RegDesc := ⟨0x0, [⟨9, 0, .st⟩, ⟨31, 10, .res⟩, ⟨41, 32, .st⟩, ⟨47, 42, .res⟩, ⟨52, 48, .st⟩, ⟨61, 53, .res⟩, ⟨62, 62, .st⟩, ⟨63, 63, .st⟩]⟩
/-- The offset of MEMC_RANGEr in its block. -/
def rMemcRanger (r : Nat) : Nat := 0x1000 + 0x8 * r
/-- MEMC_REGpc. -/
def dMemcRegpc : RegDesc := ⟨0x1001400000, [⟨8, 0, .st⟩, ⟨15, 9, .res⟩, ⟨24, 16, .st⟩, ⟨31, 25, .res⟩, ⟨40, 32, .st⟩, ⟨63, 41, .res⟩]⟩
/-- The offset of MEMC_REGpc in its block. -/
def rMemcRegpc (p c : Nat) : Nat := 0x10000 + 0x100 * p + 0x8 * c

/-- The registers of the memc block by offset. -/
def descMemc (o : Nat) : Option RegDesc :=
  if o = 0x0 then some dMemcState
  else if o = 0x8 then some dMemcErrcode
  else if o = 0x100 then some dMemcDripcfg
  else if 0x200 ≤ o ∧ o < 0x300 ∧ (o - 0x200) % 0x8 = 0 then some dMemcDripc
  else if o = 0x300 then some dMemcScrub
  else if o = 0x308 then some dMemcScrubstat
  else if o = 0x310 then some dMemcScrubfirst
  else if o = 0x400 then some dMemcBankret
  else if o = 0x500 then some dMemcInjaddr
  else if o = 0x508 then some dMemcInjmask
  else if o = 0x600 then some dMemcMargctrl
  else if 0x700 ≤ o ∧ o < 0x800 ∧ (o - 0x700) % 0x8 = 0 then some dMemcMarginc
  else if 0x1000 ≤ o ∧ o < 0x1200 ∧ (o - 0x1000) % 0x8 = 0 then some dMemcRanger
  else if 0x10000 ≤ o ∧ o < 0x12000 ∧ (o - 0x10000) % 0x100 < 0x100 ∧ (o - 0x10000) % 0x8 = 0 then some dMemcRegpc
  else none

/-- GRT_STATE. -/
def dGrtState : RegDesc := ⟨0xB7000000000, [⟨7, 0, .res⟩, ⟨15, 8, .ro⟩, ⟨23, 16, .ro⟩, ⟨31, 24, .res⟩, ⟨47, 32, .ro⟩, ⟨63, 48, .res⟩]⟩
/-- The offset of GRT_STATE in its block. -/
def rGrtState : Nat := 0x0
/-- GRT_ERRCODE. -/
def dGrtErrcode : RegDesc := ⟨0x0, [⟨15, 0, .ro⟩, ⟨16, 16, .w1c⟩, ⟨63, 17, .res⟩]⟩
/-- The offset of GRT_ERRCODE in its block. -/
def rGrtErrcode : Nat := 0x8
/-- GRT_MODE. -/
def dGrtMode : RegDesc := ⟨0x1, [⟨0, 0, .rw⟩, ⟨1, 1, .sc⟩, ⟨63, 2, .res⟩]⟩
/-- The offset of GRT_MODE in its block. -/
def rGrtMode : Nat := 0x10
/-- GRT_DRIPCFG. -/
def dGrtDripcfg : RegDesc := ⟨0x3E80040, [⟨7, 0, .rw⟩, ⟨15, 8, .res⟩, ⟨31, 16, .rw⟩, ⟨63, 32, .res⟩]⟩
/-- The offset of GRT_DRIPCFG in its block. -/
def rGrtDripcfg : Nat := 0x18
/-- GRT_INTRUDE. -/
def dGrtIntrude : RegDesc := ⟨0x0, [⟨31, 0, .ro⟩, ⟨63, 32, .ro⟩]⟩
/-- The offset of GRT_INTRUDE in its block. -/
def rGrtIntrude : Nat := 0x20
/-- GRT_OWNk. -/
def dGrtOwnk : RegDesc := ⟨0x0, [⟨4, 0, .st⟩, ⟨62, 5, .res⟩, ⟨63, 63, .st⟩]⟩
/-- The offset of GRT_OWNk in its block. -/
def rGrtOwnk (k : Nat) : Nat := 0x100 + 0x8 * k
/-- GRT_CSTATEk. -/
def dGrtCstatek : RegDesc := ⟨0x0, [⟨15, 0, .ro⟩, ⟨31, 16, .res⟩, ⟨32, 32, .ro⟩, ⟨35, 33, .ro⟩, ⟨39, 36, .ro⟩, ⟨47, 40, .ro⟩, ⟨63, 48, .ro⟩]⟩
/-- The offset of GRT_CSTATEk in its block. -/
def rGrtCstatek (k : Nat) : Nat := 0x1000 + 0x80 * k
/-- GRT_CCTRLk. -/
def dGrtCctrlk : RegDesc := ⟨0x2, [⟨0, 0, .sc⟩, ⟨1, 1, .rw⟩, ⟨2, 2, .sc⟩, ⟨63, 3, .res⟩]⟩
/-- The offset of GRT_CCTRLk in its block. -/
def rGrtCctrlk (k : Nat) : Nat := 0x1008 + 0x80 * k
/-- GRT_LAUNCHk. -/
def dGrtLaunchk : RegDesc := ⟨0x0, [⟨63, 0, .ro⟩]⟩
/-- The offset of GRT_LAUNCHk in its block. -/
def rGrtLaunchk (k : Nat) : Nat := 0x1010 + 0x80 * k
/-- GRT_CDRIPk. -/
def dGrtCdripk : RegDesc := ⟨0x0, [⟨0, 0, .sc⟩, ⟨7, 1, .res⟩, ⟨15, 8, .ro⟩, ⟨31, 16, .ro⟩, ⟨63, 32, .res⟩]⟩
/-- The offset of GRT_CDRIPk in its block. -/
def rGrtCdripk (k : Nat) : Nat := 0x1018 + 0x80 * k
/-- GRT_CNTk_i. -/
def dGrtCntki : RegDesc := ⟨0x0, [⟨63, 0, .ro⟩]⟩
/-- The offset of GRT_CNTk_i in its block. -/
def rGrtCntki (k i : Nat) : Nat := 0x1040 + 0x80 * k + 0x8 * i

/-- The registers of the grt block by offset. -/
def descGrt (o : Nat) : Option RegDesc :=
  if o = 0x0 then some dGrtState
  else if o = 0x8 then some dGrtErrcode
  else if o = 0x10 then some dGrtMode
  else if o = 0x18 then some dGrtDripcfg
  else if o = 0x20 then some dGrtIntrude
  else if 0x100 ≤ o ∧ o < 0x500 ∧ (o - 0x100) % 0x8 = 0 then some dGrtOwnk
  else if 0x1000 ≤ o ∧ o < 0x5000 ∧ (o - 0x1000) % 0x80 = 0 then some dGrtCstatek
  else if 0x1008 ≤ o ∧ o < 0x5008 ∧ (o - 0x1008) % 0x80 = 0 then some dGrtCctrlk
  else if 0x1010 ≤ o ∧ o < 0x5010 ∧ (o - 0x1010) % 0x80 = 0 then some dGrtLaunchk
  else if 0x1018 ≤ o ∧ o < 0x5018 ∧ (o - 0x1018) % 0x80 = 0 then some dGrtCdripk
  else if 0x1040 ≤ o ∧ o < 0x5040 ∧ (o - 0x1040) % 0x80 < 0x40 ∧ (o - 0x1040) % 0x8 = 0 then some dGrtCntki
  else none

/-- KVP_ERRCODE. -/
def dKvpErrcode : RegDesc := ⟨0x0, [⟨15, 0, .ro⟩, ⟨16, 16, .w1c⟩, ⟨63, 17, .res⟩]⟩
/-- The offset of KVP_ERRCODE in its block. -/
def rKvpErrcode : Nat := 0x8
/-- KVP_XLTROOT. -/
def dKvpXltroot : RegDesc := ⟨0x0, [⟨12, 0, .res⟩, ⟨47, 13, .st⟩, ⟨62, 48, .res⟩, ⟨63, 63, .st⟩]⟩
/-- The offset of KVP_XLTROOT in its block. -/
def rKvpXltroot : Nat := 0x10
/-- KVP_XLTINV. -/
def dKvpXltinv : RegDesc := ⟨0x0, [⟨15, 0, .res⟩, ⟨51, 16, .rw⟩, ⟨60, 52, .res⟩, ⟨61, 61, .ro⟩, ⟨62, 62, .rw⟩, ⟨63, 63, .sc⟩]⟩
/-- The offset of KVP_XLTINV in its block. -/
def rKvpXltinv : Nat := 0x18
/-- KVP_WALKCNT. -/
def dKvpWalkcnt : RegDesc := ⟨0x0, [⟨31, 0, .ro⟩, ⟨63, 32, .ro⟩]⟩
/-- The offset of KVP_WALKCNT in its block. -/
def rKvpWalkcnt : Nat := 0x20
/-- KVP_LENTAB. -/
def dKvpLentab : RegDesc := ⟨0x0, [⟨0, 0, .st⟩, ⟨5, 1, .res⟩, ⟨47, 6, .st⟩, ⟨63, 48, .st⟩]⟩
/-- The offset of KVP_LENTAB in its block. -/
def rKvpLentab : Nat := 0x28
/-- KVP_POOLCFGq. -/
def dKvpPoolcfgq : RegDesc := ⟨0x8000000000000, [⟨11, 0, .st⟩, ⟨15, 12, .res⟩, ⟨27, 16, .st⟩, ⟨47, 28, .res⟩, ⟨52, 48, .st⟩, ⟨55, 53, .res⟩, ⟨58, 56, .st⟩, ⟨62, 59, .res⟩, ⟨63, 63, .st⟩]⟩
/-- The offset of KVP_POOLCFGq in its block. -/
def rKvpPoolcfgq (q : Nat) : Nat := 0x100 + 0x20 * q
/-- KVP_POOLRINGq. -/
def dKvpPoolringq : RegDesc := ⟨0x0, [⟨2, 0, .res⟩, ⟨47, 3, .st⟩, ⟨63, 48, .res⟩]⟩
/-- The offset of KVP_POOLRINGq in its block. -/
def rKvpPoolringq (q : Nat) : Nat := 0x108 + 0x20 * q
/-- KVP_LOWMARKq. -/
def dKvpLowmarkq : RegDesc := ⟨0x100000000, [⟨31, 0, .rw⟩, ⟨32, 32, .rw⟩, ⟨63, 33, .res⟩]⟩
/-- The offset of KVP_LOWMARKq in its block. -/
def rKvpLowmarkq (q : Nat) : Nat := 0x110 + 0x20 * q
/-- KVP_POOLSTATq. -/
def dKvpPoolstatq : RegDesc := ⟨0x0, [⟨31, 0, .ro⟩, ⟨47, 32, .ro⟩, ⟨60, 48, .res⟩, ⟨61, 61, .ro⟩, ⟨62, 62, .w1c⟩, ⟨63, 63, .w1c⟩]⟩
/-- The offset of KVP_POOLSTATq in its block. -/
def rKvpPoolstatq (q : Nat) : Nat := 0x118 + 0x20 * q

/-- The registers of the kvp block by offset. -/
def descKvp (o : Nat) : Option RegDesc :=
  if o = 0x8 then some dKvpErrcode
  else if o = 0x10 then some dKvpXltroot
  else if o = 0x18 then some dKvpXltinv
  else if o = 0x20 then some dKvpWalkcnt
  else if o = 0x28 then some dKvpLentab
  else if 0x100 ≤ o ∧ o < 0x200 ∧ (o - 0x100) % 0x20 = 0 then some dKvpPoolcfgq
  else if 0x108 ≤ o ∧ o < 0x208 ∧ (o - 0x108) % 0x20 = 0 then some dKvpPoolringq
  else if 0x110 ≤ o ∧ o < 0x210 ∧ (o - 0x110) % 0x20 = 0 then some dKvpLowmarkq
  else if 0x118 ≤ o ∧ o < 0x218 ∧ (o - 0x118) % 0x20 = 0 then some dKvpPoolstatq
  else none

/-- FAB_DEVID. -/
def dFabDevid : RegDesc := ⟨0x0, [⟨13, 0, .rw⟩, ⟨14, 14, .rw⟩, ⟨63, 15, .res⟩]⟩
/-- The offset of FAB_DEVID in its block. -/
def rFabDevid : Nat := 0x0
/-- FAB_ERRCODE. -/
def dFabErrcode : RegDesc := ⟨0x0, [⟨15, 0, .ro⟩, ⟨16, 16, .w1c⟩, ⟨63, 17, .res⟩]⟩
/-- The offset of FAB_ERRCODE in its block. -/
def rFabErrcode : Nat := 0x8
/-- FAB_FAILLAST. -/
def dFabFaillast : RegDesc := ⟨0x1FFF80000000, [⟨15, 0, .ro⟩, ⟨16, 16, .w1c⟩, ⟨30, 17, .res⟩, ⟨34, 31, .ro⟩, ⟨44, 35, .ro⟩, ⟨49, 45, .ro⟩, ⟨63, 50, .ro⟩]⟩
/-- The offset of FAB_FAILLAST in its block. -/
def rFabFaillast : Nat := 0x10
/-- FAB_DROPCNT. -/
def dFabDropcnt : RegDesc := ⟨0x0, [⟨31, 0, .ro⟩, ⟨63, 32, .ro⟩]⟩
/-- The offset of FAB_DROPCNT in its block. -/
def rFabDropcnt : Nat := 0x18
/-- FAB_LINKCTRLl. -/
def dFabLinkctrll : RegDesc := ⟨0x0, [⟨0, 0, .rw⟩, ⟨1, 1, .sc⟩, ⟨2, 2, .sc⟩, ⟨3, 3, .rw⟩, ⟨5, 4, .rw⟩, ⟨7, 6, .rw⟩, ⟨63, 8, .res⟩]⟩
/-- The offset of FAB_LINKCTRLl in its block. -/
def rFabLinkctrll (l : Nat) : Nat := 0x1000 + 0x40 * l
/-- FAB_LINKSTATl. -/
def dFabLinkstatl : RegDesc := ⟨0x0, [⟨3, 0, .ro⟩, ⟨15, 4, .res⟩, ⟨31, 16, .ro⟩, ⟨37, 32, .res⟩, ⟨40, 38, .ro⟩, ⟨43, 41, .ro⟩, ⟨49, 44, .ro⟩, ⟨63, 50, .ro⟩]⟩
/-- The offset of FAB_LINKSTATl in its block. -/
def rFabLinkstatl (l : Nat) : Nat := 0x1008 + 0x40 * l
/-- FAB_LINKLATl. -/
def dFabLinklatl : RegDesc := ⟨0x0, [⟨0, 0, .ro⟩, ⟨15, 1, .res⟩, ⟨31, 16, .ro⟩, ⟨47, 32, .ro⟩, ⟨63, 48, .res⟩]⟩
/-- The offset of FAB_LINKLATl in its block. -/
def rFabLinklatl (l : Nat) : Nat := 0x1010 + 0x40 * l
/-- FAB_LINKDLYl. -/
def dFabLinkdlyl : RegDesc := ⟨0x0, [⟨31, 0, .ro⟩, ⟨63, 32, .ro⟩]⟩
/-- The offset of FAB_LINKDLYl in its block. -/
def rFabLinkdlyl (l : Nat) : Nat := 0x1018 + 0x40 * l
/-- FAB_LINKERRl. -/
def dFabLinkerrl : RegDesc := ⟨0x0, [⟨31, 0, .ro⟩, ⟨47, 32, .ro⟩, ⟨63, 48, .ro⟩]⟩
/-- The offset of FAB_LINKERRl in its block. -/
def rFabLinkerrl (l : Nat) : Nat := 0x1020 + 0x40 * l
/-- FAB_LINKSCHl. -/
def dFabLinkschl : RegDesc := ⟨0x0, [⟨31, 0, .ro⟩, ⟨63, 32, .ro⟩]⟩
/-- The offset of FAB_LINKSCHl in its block. -/
def rFabLinkschl (l : Nat) : Nat := 0x1028 + 0x40 * l
/-- FAB_ADMITp_w. -/
def dFabAdmitpw : RegDesc := ⟨0x0, [⟨13, 0, .st⟩, ⟨27, 14, .res⟩, ⟨41, 28, .st⟩, ⟨56, 42, .res⟩, ⟨61, 57, .st⟩, ⟨62, 62, .st⟩, ⟨63, 63, .st⟩]⟩
/-- The offset of FAB_ADMITp_w in its block. -/
def rFabAdmitpw (p w : Nat) : Nat := 0x2000 + 0x40 * p + 0x8 * w
/-- FAB_FWDe. -/
def dFabFwde : RegDesc := ⟨0x0, [⟨5, 0, .rw⟩, ⟨11, 6, .rw⟩, ⟨17, 12, .rw⟩, ⟨61, 18, .res⟩, ⟨62, 62, .rw⟩, ⟨63, 63, .rw⟩]⟩
/-- The offset of FAB_FWDe in its block. -/
def rFabFwde (e : Nat) : Nat := 0x10000 + 0x8 * e

/-- The registers of the fab block by offset. -/
def descFab (o : Nat) : Option RegDesc :=
  if o = 0x0 then some dFabDevid
  else if o = 0x8 then some dFabErrcode
  else if o = 0x10 then some dFabFaillast
  else if o = 0x18 then some dFabDropcnt
  else if 0x1000 ≤ o ∧ o < 0x1C00 ∧ (o - 0x1000) % 0x40 = 0 then some dFabLinkctrll
  else if 0x1008 ≤ o ∧ o < 0x1C08 ∧ (o - 0x1008) % 0x40 = 0 then some dFabLinkstatl
  else if 0x1010 ≤ o ∧ o < 0x1C10 ∧ (o - 0x1010) % 0x40 = 0 then some dFabLinklatl
  else if 0x1018 ≤ o ∧ o < 0x1C18 ∧ (o - 0x1018) % 0x40 = 0 then some dFabLinkdlyl
  else if 0x1020 ≤ o ∧ o < 0x1C20 ∧ (o - 0x1020) % 0x40 = 0 then some dFabLinkerrl
  else if 0x1028 ≤ o ∧ o < 0x1C28 ∧ (o - 0x1028) % 0x40 = 0 then some dFabLinkschl
  else if 0x2000 ≤ o ∧ o < 0x2800 ∧ (o - 0x2000) % 0x40 < 0x20 ∧ (o - 0x2000) % 0x8 = 0 then some dFabAdmitpw
  else if 0x10000 ≤ o ∧ o < 0x30000 ∧ (o - 0x10000) % 0x8 = 0 then some dFabFwde
  else none

/-- HIF_ERRCODE. -/
def dHifErrcode : RegDesc := ⟨0x0, [⟨15, 0, .ro⟩, ⟨16, 16, .w1c⟩, ⟨63, 17, .res⟩]⟩
/-- The offset of HIF_ERRCODE in its block. -/
def rHifErrcode : Nat := 0x8
/-- HIF_STEWARD. -/
def dHifSteward : RegDesc := ⟨0x0, [⟨0, 0, .ro⟩, ⟨1, 1, .ro⟩, ⟨3, 2, .res⟩, ⟨4, 4, .ro⟩, ⟨6, 5, .ro⟩, ⟨7, 7, .sc⟩, ⟨31, 8, .res⟩, ⟨47, 32, .ro⟩, ⟨63, 48, .res⟩]⟩
/-- The offset of HIF_STEWARD in its block. -/
def rHifSteward : Nat := 0x10
/-- HIF_STEWCFG. -/
def dHifStewcfg : RegDesc := ⟨0xFA000007D0, [⟨15, 0, .rw⟩, ⟨31, 16, .res⟩, ⟨47, 32, .rw⟩, ⟨63, 48, .res⟩]⟩
/-- The offset of HIF_STEWCFG in its block. -/
def rHifStewcfg : Nat := 0x18
/-- HIF_HBEAT. -/
def dHifHbeat : RegDesc := ⟨0x0, [⟨31, 0, .rw⟩, ⟨63, 32, .ro⟩]⟩
/-- The offset of HIF_HBEAT in its block. -/
def rHifHbeat : Nat := 0x20
/-- HIF_BAR2BASE. -/
def dHifBar2base : RegDesc := ⟨0x0, [⟨3, 0, .rw⟩, ⟨63, 4, .res⟩]⟩
/-- The offset of HIF_BAR2BASE in its block. -/
def rHifBar2base : Nat := 0x28
/-- HIF_VECEN. -/
def dHifVecen : RegDesc := ⟨0x3FF, [⟨9, 0, .rw⟩, ⟨63, 10, .res⟩]⟩
/-- The offset of HIF_VECEN in its block. -/
def rHifVecen : Nat := 0x30
/-- HIF_ERRCNT. -/
def dHifErrcnt : RegDesc := ⟨0x0, [⟨31, 0, .ro⟩, ⟨63, 32, .res⟩]⟩
/-- The offset of HIF_ERRCNT in its block. -/
def rHifErrcnt : Nat := 0x38
/-- HIF_PCOMMIT. -/
def dHifPcommit : RegDesc := ⟨0x0, [⟨15, 0, .ro⟩, ⟨47, 16, .res⟩, ⟨52, 48, .ro⟩, ⟨55, 53, .res⟩, ⟨57, 56, .ro⟩, ⟨60, 58, .res⟩, ⟨61, 61, .ro⟩, ⟨62, 62, .sc⟩, ⟨63, 63, .sc⟩]⟩
/-- The offset of HIF_PCOMMIT in its block. -/
def rHifPcommit : Nat := 0x40

/-- The registers of the hif block by offset. -/
def descHif (o : Nat) : Option RegDesc :=
  if o = 0x8 then some dHifErrcode
  else if o = 0x10 then some dHifSteward
  else if o = 0x18 then some dHifStewcfg
  else if o = 0x20 then some dHifHbeat
  else if o = 0x28 then some dHifBar2base
  else if o = 0x30 then some dHifVecen
  else if o = 0x38 then some dHifErrcnt
  else if o = 0x40 then some dHifPcommit
  else none

/-- D2D_ERRCODE. -/
def dD2dErrcode : RegDesc := ⟨0x0, [⟨15, 0, .ro⟩, ⟨16, 16, .w1c⟩, ⟨63, 17, .res⟩]⟩
/-- The offset of D2D_ERRCODE in its block. -/
def rD2dErrcode : Nat := 0x8
/-- D2D_MODSTATm. -/
def dD2dModstatm : RegDesc := ⟨0x0, [⟨2, 0, .ro⟩, ⟨15, 3, .res⟩, ⟨17, 16, .ro⟩, ⟨19, 18, .ro⟩, ⟨21, 20, .ro⟩, ⟨24, 22, .res⟩, ⟨31, 25, .ro⟩, ⟨32, 32, .res⟩, ⟨39, 33, .ro⟩, ⟨47, 40, .ro⟩, ⟨63, 48, .ro⟩]⟩
/-- The offset of D2D_MODSTATm in its block. -/
def rD2dModstatm (m : Nat) : Nat := 0x1000 + 0x10 * m
/-- D2D_MODCTRLm. -/
def dD2dModctrlm : RegDesc := ⟨0x0, [⟨1, 0, .sc⟩, ⟨63, 2, .res⟩]⟩
/-- The offset of D2D_MODCTRLm in its block. -/
def rD2dModctrlm (m : Nat) : Nat := 0x1008 + 0x10 * m
/-- D2D_FID0. -/
def dD2dFid0 : RegDesc := ⟨0x0, [⟨0, 0, .ro⟩, ⟨3, 1, .res⟩, ⟨7, 4, .ro⟩, ⟨11, 8, .ro⟩, ⟨15, 12, .res⟩, ⟨31, 16, .ro⟩, ⟨63, 32, .res⟩]⟩
/-- The offset of D2D_FID0 in its block. -/
def rD2dFid0 : Nat := 0x4000
/-- D2D_FID1. -/
def dD2dFid1 : RegDesc := ⟨0x0, [⟨63, 0, .ro⟩]⟩
/-- The offset of D2D_FID1 in its block. -/
def rD2dFid1 : Nat := 0x4008
/-- D2D_FID2. -/
def dD2dFid2 : RegDesc := ⟨0x0, [⟨0, 0, .ro⟩, ⟨1, 1, .ro⟩, ⟨7, 2, .res⟩, ⟨31, 8, .ro⟩, ⟨39, 32, .res⟩, ⟨51, 40, .ro⟩, ⟨62, 52, .res⟩, ⟨63, 63, .ro⟩]⟩
/-- The offset of D2D_FID2 in its block. -/
def rD2dFid2 : Nat := 0x4010
/-- D2D_RFUSEm. -/
def dD2dRfusem : RegDesc := ⟨0x0, [⟨31, 0, .ro⟩, ⟨63, 32, .ro⟩]⟩
/-- The offset of D2D_RFUSEm in its block. -/
def rD2dRfusem (m : Nat) : Nat := 0x5000 + 0x8 * m

/-- The registers of the d2d block by offset. -/
def descD2d (o : Nat) : Option RegDesc :=
  if o = 0x8 then some dD2dErrcode
  else if 0x1000 ≤ o ∧ o < 0x1800 ∧ (o - 0x1000) % 0x10 = 0 then some dD2dModstatm
  else if 0x1008 ≤ o ∧ o < 0x1808 ∧ (o - 0x1008) % 0x10 = 0 then some dD2dModctrlm
  else if o = 0x4000 then some dD2dFid0
  else if o = 0x4008 then some dD2dFid1
  else if o = 0x4010 then some dD2dFid2
  else if 0x5000 ≤ o ∧ o < 0x5400 ∧ (o - 0x5000) % 0x8 = 0 then some dD2dRfusem
  else none

/-- GST_ERRCODE. -/
def dGstErrcode : RegDesc := ⟨0x0, [⟨15, 0, .ro⟩, ⟨16, 16, .w1c⟩, ⟨63, 17, .res⟩]⟩
/-- The offset of GST_ERRCODE in its block. -/
def rGstErrcode : Nat := 0x8
/-- GST_CTRL. -/
def dGstCtrl : RegDesc := ⟨0x6, [⟨0, 0, .rw⟩, ⟨1, 1, .rw⟩, ⟨2, 2, .rw⟩, ⟨7, 3, .res⟩, ⟨10, 8, .ro⟩, ⟨12, 11, .ro⟩, ⟨15, 13, .ro⟩, ⟨39, 16, .res⟩, ⟨51, 40, .rw⟩, ⟨63, 52, .res⟩]⟩
/-- The offset of GST_CTRL in its block. -/
def rGstCtrl : Nat := 0x10
/-- GST_COMMIT. -/
def dGstCommit : RegDesc := ⟨0x0, [⟨15, 0, .ro⟩, ⟨55, 16, .res⟩, ⟨57, 56, .ro⟩, ⟨60, 58, .res⟩, ⟨61, 61, .ro⟩, ⟨62, 62, .sc⟩, ⟨63, 63, .sc⟩]⟩
/-- The offset of GST_COMMIT in its block. -/
def rGstCommit : Nat := 0x18
/-- GST_POLICY. -/
def dGstPolicy : RegDesc := ⟨0x100100, [⟨8, 0, .st⟩, ⟨15, 9, .res⟩, ⟨23, 16, .st⟩, ⟨31, 24, .res⟩, ⟨63, 32, .st⟩]⟩
/-- The offset of GST_POLICY in its block. -/
def rGstPolicy : Nat := 0x20
/-- GST_WINw. -/
def dGstWinw : RegDesc := ⟨0x0, [⟨31, 0, .st⟩, ⟨55, 32, .st⟩, ⟨60, 56, .st⟩, ⟨61, 61, .st⟩, ⟨62, 62, .st⟩, ⟨63, 63, .st⟩]⟩
/-- The offset of GST_WINw in its block. -/
def rGstWinw (w : Nat) : Nat := 0x100 + 0x8 * w
/-- GST_CNTRr. -/
def dGstCntrr : RegDesc := ⟨0x0, [⟨19, 0, .st⟩, ⟨39, 20, .st⟩, ⟨55, 40, .res⟩, ⟨60, 56, .st⟩, ⟨61, 61, .st⟩, ⟨62, 62, .st⟩, ⟨63, 63, .st⟩]⟩
/-- The offset of GST_CNTRr in its block. -/
def rGstCntrr (r : Nat) : Nat := 0x200 + 0x8 * r
/-- GST_DENY. -/
def dGstDeny : RegDesc := ⟨0x0, [⟨47, 0, .ro⟩, ⟨63, 48, .res⟩]⟩
/-- The offset of GST_DENY in its block. -/
def rGstDeny : Nat := 0x300

/-- The registers of the gst block by offset. -/
def descGst (o : Nat) : Option RegDesc :=
  if o = 0x8 then some dGstErrcode
  else if o = 0x10 then some dGstCtrl
  else if o = 0x18 then some dGstCommit
  else if o = 0x20 then some dGstPolicy
  else if 0x100 ≤ o ∧ o < 0x180 ∧ (o - 0x100) % 0x8 = 0 then some dGstWinw
  else if 0x200 ≤ o ∧ o < 0x240 ∧ (o - 0x200) % 0x8 = 0 then some dGstCntrr
  else if o = 0x300 then some dGstDeny
  else none

/-- BUP_STATE. -/
def dBupState : RegDesc := ⟨0x0, [⟨31, 0, .ro⟩, ⟨40, 32, .res⟩, ⟨41, 41, .ro⟩, ⟨43, 42, .ro⟩, ⟨47, 44, .ro⟩, ⟨63, 48, .ro⟩]⟩
/-- The offset of BUP_STATE in its block. -/
def rBupState : Nat := 0x0
/-- BUP_ERRCODE. -/
def dBupErrcode : RegDesc := ⟨0x0, [⟨15, 0, .ro⟩, ⟨16, 16, .w1c⟩, ⟨63, 17, .res⟩]⟩
/-- The offset of BUP_ERRCODE in its block. -/
def rBupErrcode : Nat := 0x8
/-- BUP_CTRL. -/
def dBupCtrl : RegDesc := ⟨0x0, [⟨0, 0, .rw⟩, ⟨1, 1, .rw⟩, ⟨7, 2, .res⟩, ⟨11, 8, .rw⟩, ⟨61, 12, .res⟩, ⟨62, 62, .sc⟩, ⟨63, 63, .sc⟩]⟩
/-- The offset of BUP_CTRL in its block. -/
def rBupCtrl : Nat := 0x10
/-- BUP_FWPAGE. -/
def dBupFwpage : RegDesc := ⟨0x0, [⟨3, 0, .rw⟩, ⟨63, 4, .res⟩]⟩
/-- The offset of BUP_FWPAGE in its block. -/
def rBupFwpage : Nat := 0x20
/-- BUP_TRREC. -/
def dBupTrrec : RegDesc := ⟨0x0, [⟨0, 0, .sc⟩, ⟨11, 1, .res⟩, ⟨45, 12, .rw⟩, ⟨63, 46, .res⟩]⟩
/-- The offset of BUP_TRREC in its block. -/
def rBupTrrec : Nat := 0x30
/-- BUP_TRRECSTAT. -/
def dBupTrrecstat : RegDesc := ⟨0x0, [⟨22, 0, .ro⟩, ⟨41, 23, .res⟩, ⟨43, 42, .ro⟩, ⟨47, 44, .ro⟩, ⟨63, 48, .ro⟩]⟩
/-- The offset of BUP_TRRECSTAT in its block. -/
def rBupTrrecstat : Nat := 0x38
/-- BUP_MEMRES. -/
def dBupMemres : RegDesc := ⟨0x0, [⟨7, 0, .ro⟩, ⟨15, 8, .ro⟩, ⟨23, 16, .ro⟩, ⟨31, 24, .res⟩, ⟨63, 32, .ro⟩]⟩
/-- The offset of BUP_MEMRES in its block. -/
def rBupMemres : Nat := 0x40
/-- BUP_ROWMAPr. -/
def dBupRowmapr : RegDesc := ⟨0x1F00, [⟨0, 0, .ro⟩, ⟨7, 1, .res⟩, ⟨12, 8, .ro⟩, ⟨31, 13, .res⟩, ⟨32, 32, .ro⟩, ⟨38, 33, .res⟩, ⟨55, 39, .ro⟩, ⟨63, 56, .ro⟩]⟩
/-- The offset of BUP_ROWMAPr in its block. -/
def rBupRowmapr (r : Nat) : Nat := 0x100 + 0x8 * r

/-- The registers of the bup block by offset. -/
def descBup (o : Nat) : Option RegDesc :=
  if o = 0x0 then some dBupState
  else if o = 0x8 then some dBupErrcode
  else if o = 0x10 then some dBupCtrl
  else if o = 0x20 then some dBupFwpage
  else if o = 0x30 then some dBupTrrec
  else if o = 0x38 then some dBupTrrecstat
  else if o = 0x40 then some dBupMemres
  else if 0x100 ≤ o ∧ o < 0x200 ∧ (o - 0x100) % 0x8 = 0 then some dBupRowmapr
  else none

/-- RST_ERRCODE. -/
def dRstErrcode : RegDesc := ⟨0x0, [⟨15, 0, .ro⟩, ⟨16, 16, .w1c⟩, ⟨63, 17, .res⟩]⟩
/-- The offset of RST_ERRCODE in its block. -/
def rRstErrcode : Nat := 0x8
/-- RST_REQ. -/
def dRstReq : RegDesc := ⟨0x0, [⟨9, 0, .rw⟩, ⟨15, 10, .res⟩, ⟨23, 16, .rw⟩, ⟨57, 24, .res⟩, ⟨59, 58, .rw⟩, ⟨62, 60, .res⟩, ⟨63, 63, .sc⟩]⟩
/-- The offset of RST_REQ in its block. -/
def rRstReq : Nat := 0x10
/-- RST_STAT. -/
def dRstStat : RegDesc := ⟨0x0, [⟨15, 0, .ro⟩, ⟨31, 16, .ro⟩, ⟨41, 32, .ro⟩, ⟨59, 42, .res⟩, ⟨62, 60, .ro⟩, ⟨63, 63, .ro⟩]⟩
/-- The offset of RST_STAT in its block. -/
def rRstStat : Nat := 0x18
/-- RST_CAUSE. -/
def dRstCause : RegDesc := ⟨0x0, [⟨3, 0, .ro⟩, ⟨31, 4, .res⟩, ⟨63, 32, .ro⟩]⟩
/-- The offset of RST_CAUSE in its block. -/
def rRstCause : Nat := 0x20

/-- The registers of the rst block by offset. -/
def descRst (o : Nat) : Option RegDesc :=
  if o = 0x8 then some dRstErrcode
  else if o = 0x10 then some dRstReq
  else if o = 0x18 then some dRstStat
  else if o = 0x20 then some dRstCause
  else none

/-- RAS_ERRCODE. -/
def dRasErrcode : RegDesc := ⟨0x0, [⟨15, 0, .ro⟩, ⟨16, 16, .w1c⟩, ⟨63, 17, .res⟩]⟩
/-- The offset of RAS_ERRCODE in its block. -/
def rRasErrcode : Nat := 0x8
/-- LOG_WRSEQ. -/
def dLogWrseq : RegDesc := ⟨0x0, [⟨31, 0, .ro⟩, ⟨63, 32, .res⟩]⟩
/-- The offset of LOG_WRSEQ in its block. -/
def rLogWrseq : Nat := 0x10
/-- LOG_RDSEQ. -/
def dLogRdseq : RegDesc := ⟨0x0, [⟨31, 0, .rw⟩, ⟨63, 32, .res⟩]⟩
/-- The offset of LOG_RDSEQ in its block. -/
def rLogRdseq : Nat := 0x18
/-- LOG_COUNT. -/
def dLogCount : RegDesc := ⟨0x0, [⟨31, 0, .ro⟩, ⟨63, 32, .ro⟩]⟩
/-- The offset of LOG_COUNT in its block. -/
def rLogCount : Nat := 0x20
/-- LOG_CTRL. -/
def dLogCtrl : RegDesc := ⟨0x40000000000, [⟨31, 0, .res⟩, ⟨43, 32, .rw⟩, ⟨62, 44, .res⟩, ⟨63, 63, .sc⟩]⟩
/-- The offset of LOG_CTRL in its block. -/
def rLogCtrl : Nat := 0x28
/-- LOG_DMA. -/
def dLogDma : RegDesc := ⟨0xB000000000000, [⟨11, 0, .res⟩, ⟨45, 12, .rw⟩, ⟨47, 46, .res⟩, ⟨52, 48, .rw⟩, ⟨62, 53, .res⟩, ⟨63, 63, .rw⟩]⟩
/-- The offset of LOG_DMA in its block. -/
def rLogDma : Nat := 0x30
/-- RAS_SCSTAT. -/
def dRasScstat : RegDesc := ⟨0x0, [⟨1, 0, .ro⟩, ⟨3, 2, .ro⟩, ⟨31, 4, .res⟩, ⟨47, 32, .ro⟩, ⟨63, 48, .ro⟩]⟩
/-- The offset of RAS_SCSTAT in its block. -/
def rRasScstat : Nat := 0x40
/-- RAS_SCCTRL. -/
def dRasScctrl : RegDesc := ⟨0x0, [⟨0, 0, .sc⟩, ⟨63, 1, .res⟩]⟩
/-- The offset of RAS_SCCTRL in its block. -/
def rRasScctrl : Nat := 0x48

/-- Eight bytes of the log window (R394, R398). -/
def dLogWindow : RegDesc := ⟨0x0, [⟨63, 0, .ro⟩]⟩

/-- The registers of the ras block by offset. -/
def descRas (o : Nat) : Option RegDesc :=
  if o = 0x8 then some dRasErrcode
  else if o = 0x10 then some dLogWrseq
  else if o = 0x18 then some dLogRdseq
  else if o = 0x20 then some dLogCount
  else if o = 0x28 then some dLogCtrl
  else if o = 0x30 then some dLogDma
  else if o = 0x40 then some dRasScstat
  else if o = 0x48 then some dRasScctrl
  else if 0x10000 ≤ o ∧ o < 0x20000 ∧ o % 8 = 0 then some dLogWindow
  else none

/-- PWR_ERRCODE. -/
def dPwrErrcode : RegDesc := ⟨0x0, [⟨15, 0, .ro⟩, ⟨16, 16, .w1c⟩, ⟨63, 17, .res⟩]⟩
/-- The offset of PWR_ERRCODE in its block. -/
def rPwrErrcode : Nat := 0x8
/-- CLK_PLL. -/
def dClkPll : RegDesc := ⟨0x0, [⟨31, 0, .rw⟩, ⟨63, 32, .ro⟩]⟩
/-- The offset of CLK_PLL in its block. -/
def rClkPll : Nat := 0x10
/-- CLK_STATE. -/
def dClkState : RegDesc := ⟨0x0, [⟨0, 0, .ro⟩, ⟨1, 1, .ro⟩, ⟨2, 2, .ro⟩, ⟨3, 3, .ro⟩, ⟨6, 4, .res⟩, ⟨9, 7, .ro⟩, ⟨11, 10, .ro⟩, ⟨31, 12, .res⟩, ⟨63, 32, .ro⟩]⟩
/-- The offset of CLK_STATE in its block. -/
def rClkState : Nat := 0x18
/-- PWR_RAILr. -/
def dPwrRailr : RegDesc := ⟨0x0, [⟨2, 0, .ro⟩, ⟨7, 3, .res⟩, ⟨15, 8, .ro⟩, ⟨19, 16, .res⟩, ⟨31, 20, .ro⟩, ⟨47, 32, .ro⟩, ⟨63, 48, .ro⟩]⟩
/-- The offset of PWR_RAILr in its block. -/
def rPwrRailr (r : Nat) : Nat := 0x100 + 0x8 * r
/-- PWR_LIMIT. -/
def dPwrLimit : RegDesc := ⟨0xAF09600004, [⟨2, 0, .rw⟩, ⟨15, 3, .res⟩, ⟨27, 16, .rw⟩, ⟨39, 28, .rw⟩, ⟨63, 40, .res⟩]⟩
/-- The offset of PWR_LIMIT in its block. -/
def rPwrLimit : Nat := 0x40
/-- PWR_STAT. -/
def dPwrStat : RegDesc := ⟨0x0, [⟨15, 0, .ro⟩, ⟨23, 16, .ro⟩, ⟨31, 24, .ro⟩, ⟨47, 32, .ro⟩, ⟨63, 48, .ro⟩]⟩
/-- The offset of PWR_STAT in its block. -/
def rPwrStat : Nat := 0x48

/-- The registers of the clk block by offset. -/
def descClk (o : Nat) : Option RegDesc :=
  if o = 0x8 then some dPwrErrcode
  else if o = 0x10 then some dClkPll
  else if o = 0x18 then some dClkState
  else if 0x100 ≤ o ∧ o < 0x140 ∧ (o - 0x100) % 0x8 = 0 then some dPwrRailr
  else if o = 0x40 then some dPwrLimit
  else if o = 0x48 then some dPwrStat
  else none

/-- THM_ERRCODE. -/
def dThmErrcode : RegDesc := ⟨0x0, [⟨15, 0, .ro⟩, ⟨16, 16, .w1c⟩, ⟨63, 17, .res⟩]⟩
/-- The offset of THM_ERRCODE in its block. -/
def rThmErrcode : Nat := 0x8
/-- THM_STATE. -/
def dThmState : RegDesc := ⟨0x0, [⟨15, 0, .ro⟩, ⟨23, 16, .ro⟩, ⟨31, 24, .ro⟩, ⟨47, 32, .ro⟩, ⟨51, 48, .res⟩, ⟨54, 52, .ro⟩, ⟨55, 55, .ro⟩, ⟨59, 56, .res⟩, ⟨62, 60, .ro⟩, ⟨63, 63, .ro⟩]⟩
/-- The offset of THM_STATE in its block. -/
def rThmState : Nat := 0x10
/-- THM_SLOW. -/
def dThmSlow : RegDesc := ⟨0x3200000000, [⟨2, 0, .ro⟩, ⟨5, 3, .res⟩, ⟨7, 6, .ro⟩, ⟨8, 8, .sc⟩, ⟨11, 9, .rw⟩, ⟨15, 12, .res⟩, ⟨31, 16, .ro⟩, ⟨41, 32, .rw⟩, ⟨63, 42, .res⟩]⟩
/-- The offset of THM_SLOW in its block. -/
def rThmSlow : Nat := 0x18
/-- THM_COOLANT. -/
def dThmCoolant : RegDesc := ⟨0xA, [⟨11, 0, .rw⟩, ⟨15, 12, .res⟩, ⟨23, 16, .rw⟩, ⟨31, 24, .res⟩, ⟨47, 32, .rw⟩, ⟨60, 48, .res⟩, ⟨61, 61, .ro⟩, ⟨62, 62, .ro⟩, ⟨63, 63, .rw⟩]⟩
/-- The offset of THM_COOLANT in its block. -/
def rThmCoolant : Nat := 0x20
/-- THM_SENSn. -/
def dThmSensn : RegDesc := ⟨0x0, [⟨1, 0, .ro⟩, ⟨2, 2, .ro⟩, ⟨3, 3, .w1c⟩, ⟨15, 4, .res⟩, ⟨31, 16, .ro⟩, ⟨47, 32, .ro⟩, ⟨63, 48, .ro⟩]⟩
/-- The offset of THM_SENSn in its block. -/
def rThmSensn (n : Nat) : Nat := 0x10000 + 0x8 * n

/-- The registers of the thm block by offset. -/
def descThm (o : Nat) : Option RegDesc :=
  if o = 0x8 then some dThmErrcode
  else if o = 0x10 then some dThmState
  else if o = 0x18 then some dThmSlow
  else if o = 0x20 then some dThmCoolant
  else if 0x10000 ≤ o ∧ o < 0x12A40 ∧ (o - 0x10000) % 0x8 = 0 then some dThmSensn
  else none

/-- SEC_ERRCODE. -/
def dSecErrcode : RegDesc := ⟨0x0, [⟨15, 0, .ro⟩, ⟨16, 16, .w1c⟩, ⟨63, 17, .res⟩]⟩
/-- The offset of SEC_ERRCODE in its block. -/
def rSecErrcode : Nat := 0x8
/-- SEC_FWSTAT. -/
def dSecFwstat : RegDesc := ⟨0x0, [⟨2, 0, .ro⟩, ⟨8, 3, .res⟩, ⟨9, 9, .ro⟩, ⟨11, 10, .ro⟩, ⟨31, 12, .res⟩, ⟨39, 32, .ro⟩, ⟨43, 40, .res⟩, ⟨47, 44, .ro⟩, ⟨63, 48, .ro⟩]⟩
/-- The offset of SEC_FWSTAT in its block. -/
def rSecFwstat : Nat := 0x10
/-- SEC_FWDIGESTi. -/
def dSecFwdigesti : RegDesc := ⟨0x0, [⟨63, 0, .ro⟩]⟩
/-- The offset of SEC_FWDIGESTi in its block. -/
def rSecFwdigesti (i : Nat) : Nat := 0x20 + 0x8 * i
/-- SEC_HOADDR. -/
def dSecHoaddr : RegDesc := ⟨0x0, [⟨11, 0, .res⟩, ⟨45, 12, .rw⟩, ⟨63, 46, .res⟩]⟩
/-- The offset of SEC_HOADDR in its block. -/
def rSecHoaddr : Nat := 0x60
/-- SEC_HOCTRL. -/
def dSecHoctrl : RegDesc := ⟨0x0, [⟨22, 0, .rw⟩, ⟨61, 23, .res⟩, ⟨62, 62, .sc⟩, ⟨63, 63, .sc⟩]⟩
/-- The offset of SEC_HOCTRL in its block. -/
def rSecHoctrl : Nat := 0x68
/-- SEC_FUSECTRL. -/
def dSecFusectrl : RegDesc := ⟨0x0, [⟨6, 0, .ro⟩, ⟨29, 7, .res⟩, ⟨31, 30, .rw⟩, ⟨35, 32, .ro⟩, ⟨47, 36, .res⟩, ⟨55, 48, .wo⟩, ⟨61, 56, .res⟩, ⟨62, 62, .sc⟩, ⟨63, 63, .sc⟩]⟩
/-- The offset of SEC_FUSECTRL in its block. -/
def rSecFusectrl : Nat := 0x70
/-- SEC_DBGCTRL. -/
def dSecDbgctrl : RegDesc := ⟨0x0, [⟨0, 0, .rw⟩, ⟨1, 1, .res⟩, ⟨3, 2, .ro⟩, ⟨15, 4, .res⟩, ⟨31, 16, .ro⟩, ⟨62, 32, .res⟩, ⟨63, 63, .sc⟩]⟩
/-- The offset of SEC_DBGCTRL in its block. -/
def rSecDbgctrl : Nat := 0x78

/-- The registers of the sec block by offset. -/
def descSec (o : Nat) : Option RegDesc :=
  if o = 0x8 then some dSecErrcode
  else if o = 0x10 then some dSecFwstat
  else if 0x20 ≤ o ∧ o < 0x50 ∧ (o - 0x20) % 0x8 = 0 then some dSecFwdigesti
  else if o = 0x60 then some dSecHoaddr
  else if o = 0x68 then some dSecHoctrl
  else if o = 0x70 then some dSecFusectrl
  else if o = 0x78 then some dSecDbgctrl
  else none

/-- CRN_STAT. -/
def dCrnStat : RegDesc := ⟨0x0, [⟨0, 0, .ro⟩, ⟨1, 1, .ro⟩, ⟨2, 2, .ro⟩, ⟨15, 3, .res⟩, ⟨31, 16, .ro⟩, ⟨63, 32, .ro⟩]⟩
/-- The offset of CRN_STAT in its block. -/
def rCrnStat : Nat := 0x0
/-- CRN_RECw. -/
def dCrnRecw : RegDesc := ⟨0x0, [⟨63, 0, .ro⟩]⟩
/-- The offset of CRN_RECw in its block. -/
def rCrnRecw (w : Nat) : Nat := 0x100 + 0x8 * w
/-- CRN_RCPTw. -/
def dCrnRcptw : RegDesc := ⟨0x0, [⟨63, 0, .ro⟩]⟩
/-- The offset of CRN_RCPTw in its block. -/
def rCrnRcptw (w : Nat) : Nat := 0x200 + 0x8 * w

/-- The registers of the crn block by offset. -/
def descCrn (o : Nat) : Option RegDesc :=
  if o = 0x0 then some dCrnStat
  else if 0x100 ≤ o ∧ o < 0x1C0 ∧ (o - 0x100) % 0x8 = 0 then some dCrnRecw
  else if 0x200 ≤ o ∧ o < 0x260 ∧ (o - 0x200) % 0x8 = 0 then some dCrnRcptw
  else none

/-- The register at an offset of a block. -/
def regDesc : Blk → Nat → Option RegDesc
  | .hif _, o => descHif o
  | .bup, o => descBup o
  | .rst, o => descRst o
  | .clk, o => descClk o
  | .thm, o => descThm o
  | .ras, o => descRas o
  | .sec, o => descSec o
  | .crn, o => descCrn o
  | .d2d, o => descD2d o
  | .gst, o => descGst o
  | .memc _, o => descMemc o
  | .grt _, o => descGrt o
  | .fab, o => descFab o
  | .time, o => descTime o
  | .part _, o => descPart o
  | .kvp _, o => descKvp o
  | .tile _, o => descTile o
  | .hvc _, o => descHvc o

/-- The reset value of a register; 0 where no register is named. -/
def regReset (b : Blk) (o : Nat) : Word :=
  match regDesc b o with
  | some d => BitVec.ofNat 64 d.reset
  | none => 0

/-- The stored value of a register. -/
def rg (s : State) (b : Blk) (o : Nat) : Word := SMap.get (regReset b o) s.regs (b.base + o)

/-- The state with a register set. -/
def rset (s : State) (b : Blk) (o : Nat) (w : Word) : State := { s with regs := SMap.put (b.base + o) w s.regs }

/-- The value in effect of a register with ST fields (R12). -/
def rgEff (s : State) (b : Blk) (o : Nat) : Word := SMap.get (regReset b o) s.eff (b.base + o)

/-- The state with the value in effect set. -/
def rsetEff (s : State) (b : Blk) (o : Nat) (w : Word) : State := { s with eff := SMap.put (b.base + o) w s.eff }

/-- Field `hi:lo` of a register. -/
def rf (s : State) (b : Blk) (o hi lo : Nat) : Nat := (rg s b o).field hi lo

/-- Field `hi:lo` of a register's value in effect. -/
def rfEff (s : State) (b : Blk) (o hi lo : Nat) : Nat := (rgEff s b o).field hi lo

/-- The state with field `hi:lo` of a register set. -/
def rput (s : State) (b : Blk) (o hi lo n : Nat) : State := rset s b o ((rg s b o).put hi lo n)

/-- The state with field `hi:lo` of a register increased by `n`, saturating. -/
def rsat (s : State) (b : Blk) (o hi lo n : Nat) : State :=
  rput s b o hi lo (satAdd (hi + 1 - lo) (rf s b o hi lo) n)

end Sys2Proof.Machine
end

