-- ==== Sys2Proof/Machine/Ops.lean ====
section
/-! DEFINITION. Shared operations: parts of the state by name, time, the topology of tiles and partitions, the
glow log, vectors, determinism breaks and withheld steps, and register writes by hosts. -/
namespace Sys2Proof.Machine

/-! Parts of the state. -/

/-- Physical tile `h`. -/
def State.tile (s : State) (h : Nat) : Tile := SMap.get {} s.tiles h
/-- Whether a context keeps its core awake (R80): READY, or in a counter wait that a write has met, which ends the roost
(R82). -/
def Ctx.stirs (c : Ctx) : Bool :=
  c.st == .ready ||
    match c.wait with
    | .counter _ _ _ (some _) => true
    | _ => false
/-- Whether a queue keeps its tile awake (R81). -/
def Queue.stirs (q : Queue) : Bool :=
  (q.flights.any fun f => !f.done) ||
    !(q.held.isEmpty || q.st == .halted || (q.st == .stalled && q.headMet.isNone))
/-- Whether a tile roosts (R80, R81). -/
def Tile.roosts (t : Tile) : Bool :=
  !(t.ctx.any fun c => c.2.stirs) && !(t.qs.any fun q => q.2.stirs) &&
    match t.group with
    | some { phase := .committing _ _, .. } | some { phase := .landed _ _ _, .. } => false
    | _ => true
/-- The roosting of a tile that becomes `t` on cycle `c`; the last device reset was on cycle `r`. -/
def Roost.turn (x : Roost) (t : Tile) (c r : Nat) : Roost :=
  if x.awake = t.roosts then
    (if x.awake then { x with awake := false, since := c }
     else { awake := true, since := c, cycles := x.cycles + (c - max x.since r), wakes := x.wakes + 1 })
  else x
/-- The state with physical tile `h` replaced; its roosting follows. -/
def State.setTile (s : State) (h : Nat) (t : Tile) : State :=
  { s with tiles := SMap.put h t s.tiles
           roost := SMap.put h ((SMap.get {} s.roost h).turn t s.cyc s.resetAt) s.roost }
/-- The state with physical tile `h` changed. -/
def State.updTile (s : State) (h : Nat) (f : Tile → Tile) : State := s.setTile h (f (s.tile h))
/-- Context `n` of a tile. -/
def Tile.ctxOf (t : Tile) (n : Nat) : Ctx := SMap.get {} t.ctx n
/-- The tile with context `n` replaced. -/
def Tile.setCtx (t : Tile) (n : Nat) (c : Ctx) : Tile := { t with ctx := SMap.put n c t.ctx }
/-- Queue `q` of a tile. -/
def Tile.qOf (t : Tile) (q : Nat) : Queue := SMap.get {} t.qs q
/-- The tile with queue `q` replaced. -/
def Tile.setQ (t : Tile) (q : Nat) (x : Queue) : Tile := { t with qs := SMap.put q x t.qs }
/-- The grotto core with AGENT `k`. -/
def State.grotto (s : State) (k : Nat) : Grotto := SMap.get {} s.grt k
/-- The state with a grotto core replaced. -/
def State.setGrotto (s : State) (k : Nat) (c : Grotto) : State := { s with grt := SMap.put k c s.grt }
/-- Partition `p`. -/
def State.part (s : State) (p : Nat) : Part := SMap.get {} s.parts p
/-- The state with a partition replaced. -/
def State.setPart (s : State) (p : Nat) (x : Part) : State := { s with parts := SMap.put p x s.parts }
/-- The state with a partition changed. -/
def State.updPart (s : State) (p : Nat) (f : Part → Part) : State := s.setPart p (f (s.part p))
/-- Stack `k`. -/
def State.stack (s : State) (k : Nat) : Stack := SMap.get {} s.memStacks k
/-- The state with a stack replaced. -/
def State.setStack (s : State) (k : Nat) (x : Stack) : State := { s with memStacks := SMap.put k x s.memStacks }
/-- Mirsar link `l`. -/
def State.link (s : State) (l : Nat) : Link := SMap.get {} s.links l
/-- The state with a link replaced. -/
def State.setLink (s : State) (l : Nat) (x : Link) : State := { s with links := SMap.put l x s.links }
/-- Ridge module `m`. -/
def State.ridgeMod (s : State) (m : Nat) : Ridge := SMap.get {} s.ridge m
/-- The state with a ridge module replaced. -/
def State.setRidge (s : State) (m : Nat) (x : Ridge) : State := { s with ridge := SMap.put m x s.ridge }
/-- A PCIe port. -/
def State.portOf (s : State) (port : Bool) : Port := if port then s.port1 else s.port0
/-- The state with a PCIe port replaced. -/
def State.setPort (s : State) (port : Bool) (x : Port) : State :=
  if port then { s with port1 := x } else { s with port0 := x }
/-- Whether a port's link carries traffic: up, and no IDE stream of it broken (R312, R442). -/
def portUp (s : State) (port : Bool) : Bool := (s.portOf port).up && (s.portOf port).ideBroken.isEmpty
/-- The memory of the host on a port. -/
def State.hostMem (s : State) (port : Bool) : Mem := if port then s.hostMem1 else s.hostMem0
/-- The state with a host's memory replaced. -/
def State.setHostMem (s : State) (port : Bool) (m : Mem) : State :=
  if port then { s with hostMem1 := m } else { s with hostMem0 := m }
/-- The state with a message sent. -/
def State.send (s : State) (m : Msg) : State := { s with sent := m :: s.sent }

/-- A number drawn from the free values (log entry 2), with the state that has drawn it. -/
def State.draw (s : State) : Nat × State := (Config.freeNat s.free, { s with free := s.free + 1 })

/-! Time (log entry 3). -/

/-- DIV. -/
def divNow (s : State) : Nat := rf s .clk rClkState 11 10
/-- What one FCLK cycle adds to device time, in thirds of 2^-16 ns over `clockDen`: 131,072 of them at 1.5 GHz, twice as
much for each division (R415), at device time's own rate (RATE, R304). -/
def clockNum (s : State) : Nat :=
  131072 * 2 ^ divNow s * (100000000 + signedOf 16 (rf s .time rTimeStat 31 16)).toNat
/-- The rate to which FCLK is steered (STEER, R189), in units of 0.01 ppm. -/
def clockDen (s : State) : Nat := (100000000 + signedOf 16 (rf s .time rTimeEpochofs 47 32)).toNat
/-- Device time after `n` FCLK cycles (R304). -/
def State.timeAfter (s : State) (n : Nat) : DevTime :=
  if n = 0 then s.time
  else
    let x := clockNum s * n + s.time.rem
    { s.time with t := s.time.t + x / clockDen s, rem := x % clockDen s }
/-- The state at FCLK cycle `c`, with device time moved on as far; time never runs back. -/
def State.upTo (s : State) (c : Nat) : State :=
  { s with cyc := max s.cyc c, time := s.timeAfter (c - s.cyc) }

/-- TIME_NOW NS. -/
def State.nowNs (s : State) : Nat := s.time.t / 196608 % 2 ^ 64
/-- The fraction of TIME_NOW, in units of 2^-16 ns. -/
def State.nowFrac (s : State) : Nat := s.time.t / 3 % 65536
/-- FCLK cycles in one millisecond at 1.5 GHz. -/
def cycPerMs : Nat := 1500000

/-! Topology (R17 to R20, R368). -/

/-- Cluster of a logical tile. -/
def clusterOf (t : Nat) : Nat := t / 16
/-- Cluster of a physical tile. -/
def clusterOfPhys (h : Nat) : Nat := h / 17
/-- The presented class of a cluster, 0 where it carries no logical tiles. -/
def clusterClass (s : State) (r : Nat) : Nat := rf s .bup (rBupRowmapr r) 63 56
/-- The hole of a row. -/
def holeOf (s : State) (r : Nat) : Nat := rf s .bup (rBupRowmapr r) 12 8
/-- The physical tile that carries logical tile `t` (R368); `none` before the map is built and in a degraded
row. -/
def physOf (s : State) (t : Nat) : Option Nat :=
  let r := clusterOf t
  if clusterClass s r = 0 then none
  else
    let c := t % 16
    some (r * 17 + (if holeOf s r ≤ c then c + 1 else c))
/-- The logical tile that a physical tile carries. -/
def logOf (s : State) (h : Nat) : Option Nat :=
  let r := clusterOfPhys h
  let c := h % 17
  (List.range 16).findSome? fun i => if physOf s (r * 16 + i) = some (r * 17 + c) then some (r * 16 + i) else none

/-- Whether partition `p` exists (PART_COMP VALID in effect). -/
def partValid (s : State) (p : Nat) : Bool := (rgEff s (.part p) rPartComp).bit 63
/-- The owning port of partition `p`. -/
def partPort (s : State) (p : Nat) : Bool := (rgEff s (.part p) rPartComp).bit 32
/-- Whether partition `p` holds cluster `r`. -/
def partHasCluster (s : State) (p r : Nat) : Bool := partValid s p && (rgEff s (.part p) rPartComp).bit r
/-- The partition that holds cluster `r`. -/
def partOfCluster (s : State) (r : Nat) : Option Nat := (List.range 32).find? fun p => partHasCluster s p r
/-- The partition that holds logical tile `t`. -/
def partOfTile (s : State) (t : Nat) : Option Nat := partOfCluster s (clusterOf t)
/-- The partition that holds host-visible group `g`. -/
def partOfGroup (s : State) (g : Nat) : Option Nat :=
  (List.range 32).find? fun p => partValid s p && (rgEff s (.part p) rPartHvcg).bit g
/-- The partition that owns the grotto core with AGENT `k`. -/
def partOfGrotto (s : State) (k : Nat) : Option Nat :=
  let w := rgEff s (.grt (k / 128)) (rGrtOwnk (k % 128))
  if w.bit 63 then some (w.field 4 0) else none
/-- The steward port (R321). -/
def stewardPort (s : State) : Bool := s.steward.port

/-- Traverse states (PART_TRVSTAT STATE). -/
def trvState (s : State) (p : Nat) : Nat := rf s (.part p) rPartTrvstat 34 32
/-- STATE EMPTY. -/
def trvEMPTY : Nat := 0
/-- STATE LOADING. -/
def trvLOADING : Nat := 1
/-- STATE LOADED. -/
def trvLOADED : Nat := 2
/-- STATE RUNNING. -/
def trvRUNNING : Nat := 3
/-- STATE STOPPING. -/
def trvSTOPPING : Nat := 4
/-- STATE FAILED. -/
def trvFAILED : Nat := 5
/-- Whether partition `p` is RUNNING. -/
def partRunning (s : State) (p : Nat) : Bool := trvState s p == trvRUNNING
/-- Whether the traverse of a partition runs: RUNNING, or STOPPING while the step it stops in goes on (R115). -/
def traverseRuns (s : State) (p : Nat) : Bool := trvState s p == trvRUNNING || trvState s p == trvSTOPPING
/-- The current step of a partition (R478). -/
def curStep (s : State) (p : Nat) : Nat := rf s (.part p) rPartTrvstep 31 0
/-- Whether cluster `r` is paused (R184). -/
def clusterPaused (s : State) (r : Nat) : Bool :=
  match partOfCluster s r with
  | some p => (rg s (.part p) rPartPause).bit (32 + r)
  | none => false
/-- Step-clock cycles since the current step of a partition started (R180, R478). -/
def stepCycles (s : State) (p : Nat) : Nat :=
  let x := s.part p
  if x.started then
    (match x.stoppedAt with | some c => c | none => s.cyc) - x.stepStart - x.stopped
  else 0
/-- TIME_EPOCHNUM. -/
def epochNum (s : State) : Nat := (rg s .time rTimeEpochnum).toNat

/-! Resets in progress (R379). -/

/-- Whether a reset of that scope runs. -/
def resetting (s : State) (r : ResetScope) : Bool := s.bup.resets.contains r
/-- Whether logical tile `t` lies in a scope under reset. -/
def tileResetting (s : State) (t : Nat) : Bool :=
  s.bup.resets.any fun r =>
    match r with
    | .tile x => x.val == t
    | .cluster c => c.val == clusterOf t
    | .part p => partHasCluster s p.val (clusterOf t)
    | .device => true
/-- Whether a partition or the device is under reset. -/
def partResetting (s : State) (p : Nat) : Bool :=
  s.bup.resets.any fun r =>
    match r with
    | .part x => x.val == p
    | .device => true
    | _ => false

/-- Whether the partition of a logical tile loads a traverse, in which its tiles run nothing (R114). -/
def tileLoading (s : State) (t : Nat) : Bool :=
  match partOfTile s t with
  | some p => trvState s p == trvLOADING
  | none => false

/-- The physical tile on which units of logical tile `t` issue: mapped, its cluster neither paused (R184) nor
under reset (R379), its partition not LOADING (R114), its clocks running (R425). -/
def activeTile (s : State) (t : Nat) : Option Nat :=
  if s.therm.stopped || clusterPaused s (clusterOf t) || tileResetting s t || tileLoading s t then none else physOf s t

/-! Slice refresh slots (R198, R202). -/

/-- Slots per epoch of the slice controllers of cluster `r` (TILE_SL_STATE SLOTS). -/
def slotsOf (s : State) (r : Nat) : Nat := max 1 (rf s (.tile (r * 17)) rTileSlState 20 16)
/-- The slots per epoch of a cluster are about to become `n`: what they were, and this cycle, are kept. -/
def noteSlots (r n : Nat) (s : State) : State :=
  if slotsOf s r = n then s
  else { s with therm := { s.therm with slotsWere := SMap.put r (slotsOf s r, s.cyc) s.therm.slotsWere } }
/-- Whether a slot of cluster `r` starts on cycle `c` of the running epoch or a later one: at the positions of the mode in
effect, and up to its arrival at those of the mode before. -/
def slotStarts (s : State) (r c : Nat) : Bool :=
  let x := SMap.get (1, 0) s.therm.slotsWere r
  (c - s.markCyc) % (8192 / (if c < x.2 then max 1 x.1 else slotsOf s r)) == 0
/-- Whether cycle `c` lies in a slot of cluster `r`. -/
def inSlot (s : State) (r c : Nat) : Bool :=
  let off := (c - s.markCyc) % 512
  decide (off < 64) && slotStarts s r (c - off)

/-! The glow log (R394 to R397). -/

/-- An event at a source becomes its pending entry; one that finds an entry pending is counted in LOST (R396),
and LOG_LOST is logged when LOST first rises after a drain (Table FLT-4). -/
def logEvent (src : Nat) (code : Code) (data : Nat) (s : State) : State :=
  if s.glow.pend.has src then
    let s := rsat s .ras rLogCount 63 32 1
    if s.glow.lostLogged || s.glow.pend.has srcLog then s
    else { s with glow := { s.glow with lostLogged := true, pend := SMap.put srcLog ⟨srcLog, .logLost, 0⟩ s.glow.pend } }
  else { s with glow := { s.glow with pend := SMap.put src ⟨src, code, data⟩ s.glow.pend } }

/-! Vectors (R333, R334). -/

/-- The key of a vector in a port's MSI-X lists: function × 32 + vector. -/
def vecKey (vf v : Nat) : Nat := vf * 32 + v
/-- A vector goes out on a port, or is marked pending while masked or while the link is down (R312, R334). -/
def sendVector (port : Bool) (vf v : Nat) (s : State) : State :=
  let p := s.portOf port
  if !portUp s port || p.masked.contains (vecKey vf v) then
    if p.msixPending.contains (vecKey vf v) then s
    else s.setPort port { p with msixPending := vecKey vf v :: p.msixPending }
  else s.send (.vector port vf v)
/-- PF0 vector `v` on one port, if enabled. -/
def raisePort (port : Bool) (v : Nat) (s : State) : State :=
  if (rg s (.hif port) rHifVecen).bit v then sendVector port 0 v s else s
/-- PF0 vector `v` on both ports. -/
def raisePF0 (v : Nat) (s : State) : State := raisePort true v (raisePort false v s)
/-- VF vector `v` of partition `p`, if enabled. -/
def raiseVF (p v : Nat) (s : State) : State :=
  if (rg s (.part p) rPartVecen).bit v then sendVector (partPort s p) (p + 1) v s else s
/-- The partition's fault vector. -/
def raiseFault (p : Nat) (s : State) : State := raiseVF p 0 s
/-- The partition's event vector. -/
def raiseEvent (p : Nat) (s : State) : State := raiseVF p 1 s
/-- The device event vector. -/
def raiseDevice (s : State) : State := raisePF0 1 s
/-- The fault vector of the partition that holds something, if one does. -/
def raiseFaultOf (p : Option Nat) (s : State) : State :=
  match p with
  | some p => raiseFault p s
  | none => s
/-- The event vector of the partition that holds a counter, or the device event vector (R167). -/
def raiseEventOf (p : Option Nat) (s : State) : State :=
  match p with
  | some p => raiseEvent p s
  | none => raiseDevice s

/-! Determinism breaks and withheld steps (R186, R193, R194). -/

/-- One occurrence of a break of partition `p`: `unit` as counter-plan UNIT (0xF for none), `agent` as
counter-plan AGENT (0xFFFF for none). -/
def reportBreak (p cause unit agent src : Nat) (s : State) : State :=
  let s := rsat s (.part p) rPartDbrkcnt 31 0 1
  let x := s.part p
  if x.broken.contains cause then s
  else
    let hq := x.hq.map fun e =>
      (e.1, { e.2 with jobs := e.2.jobs.map fun j => { j with dbrk := j.dbrk ||| 2 ^ cause } })
    let s := s.setPart p { x with broken := cause :: x.broken, hq := hq }
    let step := curStep s p
    let s := logEvent src .determinismBreak (cause + 2 ^ 8 * unit + 2 ^ 16 * agent + 2 ^ 32 * step) s
    let s := rset s (.part p) rPartDbrklast
      (BitVec.ofNat 64 (cause + 2 ^ 12 * unit + 2 ^ 16 * agent + 2 ^ 32 * step))
    let s := rset s (.part p) rPartDbrkepoch (rg s .time rTimeEpochnum)
    if (rg s (.part p) rPartDbrkctrl).bit cause then raiseEvent p s else s

/-- A break reported only while the partition's traverse runs (R193). -/
def reportBreakRunning (p cause unit agent src : Nat) (s : State) : State :=
  if traverseRuns s p then reportBreak p cause unit agent src s else s

/-- The current step of partition `p` is withheld with a code (R186). -/
def withhold (p : Nat) (code : Code) (s : State) : State :=
  let x := s.part p
  let hq := x.hq.map fun e =>
    (e.1, { e.2 with jobs := e.2.jobs.map fun j => if j.code = 0 then { j with code := code } else j })
  let s := s.setPart p { x with withheld := x.withheld ++ [code.toNat], hq := hq }
  rset s (.part p) rPartWithhold (BitVec.ofNat 64 (2 ^ 32 * curStep s p + 2 ^ 16 + code.toNat))

/-- The step of a partition whose traverse runs is withheld. -/
def withholdRunning (p : Nat) (code : Code) (s : State) : State := if traverseRuns s p then withhold p code s else s

/-! Register writes by hosts (R8 to R13, R473, R474). -/

/-- The bits of a register that an access of that part reaches. -/
def halfBits : Half → Word
  | .full => Word.mask 63 0
  | .low => Word.mask 31 0
  | .high => Word.mask 63 32

/-- A field that a write can change. -/
def RField.writable (f : RField) : Bool :=
  match f.acc with
  | .res | .ro => false
  | _ => true

/-- A field for which R11 rejects a 32-bit write: wider than 32 bits, or with bits in both halves, whatever its access;
reserved bits are no field (the model's reading, log entry 88). -/
def RField.wide (f : RField) : Bool :=
  f.acc != .res && (decide (31 < f.hi - f.lo) || (decide (f.lo < 32) && decide (32 ≤ f.hi)))

/-- A write that sets a reserved bit (R8). -/
def setsReserved (d : RegDesc) (w : Word) : Bool :=
  d.fields.any fun f => f.acc == .res && w.field f.hi f.lo != 0

/-- The register after a write of `w` to its bits `m`: RW and ST fields take the value, W1C bits written 1 clear, the
others keep theirs (WO and SC fields hold nothing: their write commands). -/
def mergeWrite (d : RegDesc) (m old w : Word) : Word :=
  d.fields.foldl (init := old) fun r f =>
    let fm := Word.mask f.hi f.lo &&& m
    match f.acc with
    | .rw | .st => (r &&& ~~~fm) ||| (w &&& fm)
    | .w1c => r &&& ~~~(w &&& fm)
    | _ => r

/-- ERRCODE of a block: where a rejected write of it is recorded. -/
def errReg : Blk → Option (Blk × Nat)
  | .hif p => some (.hif p, rHifErrcode)
  | .bup => some (.bup, rBupErrcode)
  | .rst => some (.rst, rRstErrcode)
  | .clk => some (.clk, rPwrErrcode)
  | .thm => some (.thm, rThmErrcode)
  | .ras => some (.ras, rRasErrcode)
  | .sec => some (.sec, rSecErrcode)
  | .crn => none
  | .d2d => some (.d2d, rD2dErrcode)
  | .gst => some (.gst, rGstErrcode)
  | .memc s => some (.memc s, rMemcErrcode)
  | .grt s => some (.grt s, rGrtErrcode)
  | .fab => some (.fab, rFabErrcode)
  | .time => some (.fab, rFabErrcode)
  | .part p => some (.part p, rPartErrcode)
  | .kvp p => some (.kvp p, rKvpErrcode)
  | .tile h => some (.tile h, rTileErrcode)
  | .hvc g => some (.hvc g, rHvcErrcode)

/-- VALID and CODE of an ERRCODE register. -/
def errWord (code : Code) : Word := BitVec.ofNat 64 (2 ^ 16 + code.toNat)

/-- A rejected write: the block's ERRCODE, and for a write through a VF its partition's PART_ERRCODE, take the
code, and the block's vector is raised: on both ports for PF0, else on the function written through (R9, R333). -/
def rejectWrite (a : Acc) (b : Blk) (code : Code) (s : State) : State :=
  let s := match errReg b with
    | some (e, o) => rset s e o (errWord code)
    | none => s
  if a.vf.val = 0 then
    match b with
    | .hif _ => raisePF0 0 s
    | _ => raisePF0 9 s
  else
    let p := a.vf.val - 1
    let s := rset s (.part p) rPartErrcode (errWord code)
    if (rg s (.part p) rPartVecen).bit 2 then sendVector a.port a.vf.val 2 s else s

/-- The functions that a register admits (R315, R321): the steward's PF0; PF0 of the owning port; PF0 or the VF
of the owning port; the accessing port's own PF0; PF0 of either port; nobody. -/
inductive Admit where
  | steward
  | owner (p : Option Nat)
  | ownerVf (p : Nat)
  | self (port : Bool)
  | anyPF0
  | noOne
  deriving DecidableEq, Repr

/-- Whether an access comes from a function that the register admits. What no partition holds is the
steward's (R165). -/
def admits (s : State) (a : Acc) : Admit → Bool
  | .steward => a.vf.val == 0 && a.port == stewardPort s
  | .owner (some p) => a.vf.val == 0 && a.port == partPort s p
  | .owner none => a.vf.val == 0 && a.port == stewardPort s
  | .ownerVf p => (a.vf.val == 0 || (a.vf.val == p + 1 && partValid s p)) && a.port == partPort s p
  | .self port => a.vf.val == 0 && a.port == port
  | .anyPF0 => a.vf.val == 0
  | .noOne => false

/-- Whether a stewardship fence runs (R323). -/
def fencing (s : State) : Bool := s.steward.claim == 1

/-- A write under check: the register before it, after it, and the value written to its bits. -/
structure Written where
  old : Word
  new : Word
  v : Word
  deriving DecidableEq, Repr

/-- The outcome of the checks of R474 that do not depend on the register's own description: owner, reserved
bits, R11; `none` where they pass. -/
def commonChecks (a : Acc) (d : RegDesc) (who : Admit) (v : Word) (s : State) : Option Code :=
  let w := v &&& halfBits a.half
  if !(admits s a who) && !(fencing s && who == .steward && a.vf.val == 0) then some .notOwner
  else if setsReserved d w then some .reservedBitSet
  else if a.half != .full && d.fields.any RField.wide then some .illegalValue
  else none

/-- Whether bring-up step `n` is over: done, or skipped (BUP_STATE STEP and STATUS, R354). -/
def bupPast (s : State) (n : Nat) : Bool :=
  let w := rg s .bup rBupState
  decide (n < w.field 47 44) || (w.field 47 44 == n && (w.field 43 42 == 2 || w.bit 41))

/-- Whether a physical tile lies in a scope under reset. -/
def physResetting (s : State) (h : Nat) : Bool :=
  s.bup.resets.any fun r =>
    match r with
    | .tile x => physOf s x.val == some h
    | .cluster c => c.val == clusterOfPhys h
    | .part p => partHasCluster s p.val (clusterOfPhys h)
    | .device => true

/-- Writes that the state of the device as a whole rejects with WRONG_STATE: into a scope under reset (R379),
to a TILE window before step 9 is over (R358), and of R389 while the saddle controller does not run or is in probation
(R434). -/
def stateGate (s : State) (b : Blk) (o : Nat) : Bool :=
  let scDown := rf s .ras rRasScstat 1 0 != 0 || rf s .sec rSecFwstat 2 0 == 4
  match b with
  | .tile h => physResetting s h || !bupPast s 9
  | .part p => (o != rPartReset && partResetting s p) || (o == rPartCommit && scDown)
  | .hif _ => o == rHifPcommit && scDown
  | .bup => (o == rBupCtrl || o == rBupTrrec) && scDown
  | .rst => o == rRstReq && scDown
  | _ => false

/-- A write of a register by a host: the common checks, the register's own checks (`chk`, R474 steps 7 and 8),
the fence; then the fields change and `act` does what the write commands. -/
def hostWrite (a : Acc) (b : Blk) (o : Nat) (d : RegDesc) (who : Admit) (v : Word)
    (chk : Written → State → Option Code) (act : Written → State → State) (s : State) : State :=
  let w := v &&& halfBits a.half
  let old := rg s b o
  let x : Written := ⟨old, mergeWrite d (halfBits a.half) old w, w⟩
  match commonChecks a d who v s with
  | some c => rejectWrite a b c s
  | none =>
    match chk x s with
    | some c => rejectWrite a b c s
    | none =>
      if (fencing s && who == .steward) || stateGate s b o then rejectWrite a b .wrongState s
      else act x (if x.new = old then s else rset s b o x.new)

/-- No checks of its own. -/
def noCheck (_ : Written) (_ : State) : Option Code := none
/-- No action beyond its fields. -/
def noAct (_ : Written) (s : State) : State := s

/-- The first code of a list of conditions and codes whose condition holds. -/
def firstOf : List (Bool × Code) → Option Code
  | [] => none
  | (b, c) :: r => if b then some c else firstOf r

/-- An ERRCODE write: writing 1 to VALID clears VALID and CODE (R9). -/
def clearErr (b : Blk) (o : Nat) (x : Written) (s : State) : State :=
  if x.v.bit 16 then rset s b o 0 else s

end Sys2Proof.Machine
end

