-- ==== Sys2Proof/Machine/Places.lean ====
section
/-! DEFINITION. The device physical address map (Table PKG-4), the two windows of a grotto stack (R240, R241),
range entries, and the bytes behind an address. -/
namespace Sys2Proof.Machine

/-- What a device physical address names: a byte of stack `s` at its interleaved address, an offset in the
own-slice window, an offset in the guest region, a bus address on a host port, or a hole. -/
inductive Place where
  | stack (s : Nat) (addr : Nat)
  | slice (off : Nat)
  | guest (off : Nat)
  | host (port : Bool) (addr : Nat)
  | hole
  deriving DecidableEq, Repr

/-- The interleaved offset of byte `x` of core `k` in its stack (R241). -/
def bankToInterleaved (k x : Nat) : Nat :=
  let bank := 4 * (k % 8) + bitsOf x 13 12
  let hi := bitsOf x 27 15 * 32 + bank
  let o := hi * 2 ^ 17
  let chan := 2 * (k / 8) + bitsOf x 14 14
  let low := (chan ^^^ bitsOf o 21 17) ^^^ (bitsOf o 26 22) ^^^ (bitsOf o 31 27) ^^^ (bitsOf o 35 32)
  o + low * 4096 + bitsOf x 11 0

/-- The base of stack `s` (MEMC numbering: 0 to 3 are P0 to P3, 4 to 7 are G0 to G3) in the interleaved window. -/
def stackBase (s : Nat) : Nat := if s < 4 then 0xC00000000 * s else 0x4000000000 + 0x800000000 * (s - 4)
/-- Bytes of stack `s`. -/
def stackSize (s : Nat) : Nat := if s < 4 then 0xC00000000 else 0x800000000

/-- The place of a device physical address. -/
def placeOf (a : Nat) : Place :=
  if a < 0x3000000000 then .stack (a / 0xC00000000) a
  else if 0x4000000000 ≤ a ∧ a < 0x6000000000 then .stack (4 + (a - 0x4000000000) / 0x800000000) a
  else if 0x8000000000 ≤ a ∧ a < 0xA000000000 then
    let g := (a - 0x8000000000) / 0x800000000
    let o := (a - 0x8000000000) % 0x800000000
    .stack (4 + g) (stackBase (4 + g) + bankToInterleaved (bitsOf o 34 28) (bitsOf o 27 0))
  else if 0xF000000000 ≤ a ∧ a < 0xF010000000 then .slice (a - 0xF000000000)
  else if 0x10000000000 ≤ a ∧ a < 0x20000000000 then .guest (a - 0x10000000000)
  else if 0x800000000000 ≤ a ∧ a < 0x1000000000000 then .host (decide (0xC00000000000 ≤ a)) (a % 2 ^ 46)
  else .hole

/-- Range entry `r` of stack `s` in effect: its partition, first granule and granules, where valid (R210). -/
def rangeEntry (s : State) (k r : Nat) : Option (Nat × Nat × Nat) :=
  let w := rgEff s (.memc k) (rMemcRanger r)
  if w.bit 63 then some (w.field 52 48, w.field 9 0, w.field 41 32) else none

end Sys2Proof.Machine
end

