-- ==== Sys2Proof/Machine/Memory.lean ====
section
/-! DEFINITION. Memories with their codes (Table MEM-4): reads and writes, error patterns, poison, injection,
drip counters (R226 to R231), and the conflicts of commit groups with other writes (R137, R220). -/
namespace Sys2Proof.Machine

/-- A protected memory: the slice or tile store of physical tile `h`, a stack, the local store of a grotto core. -/
inductive MemId where
  | slice (h : Nat) | store (h : Nat) | stack (s : Nat) | ls (k : Nat)
  deriving DecidableEq, Repr

/-- The key of a memory in the state's error patterns. -/
def MemId.key : MemId → Nat
  | .slice h => h
  | .store h => 1000 + h
  | .stack k => 2000 + k
  | .ls k => 3000 + k

/-- The bytes of a memory; a stack's bytes are kept at their device physical addresses. -/
def memOf (s : State) : MemId → Mem
  | .slice h => (s.tile h).slice
  | .store h => (s.tile h).store
  | .stack _ => s.mem
  | .ls k => (s.grotto k).ls

/-- The state with the bytes of a memory replaced. -/
def setMem (s : State) (i : MemId) (m : Mem) : State :=
  match i with
  | .slice h => s.updTile h fun t => { t with slice := m }
  | .store h => s.updTile h fun t => { t with store := m }
  | .stack _ => { s with mem := m }
  | .ls k => s.setGrotto k { s.grotto k with ls := m }

/-- The range entry that holds a stack offset: index, partition and whether FINE (R210, R218). -/
def rangeAt (s : State) (k addr : Nat) : Option (Nat × Bool) :=
  let g := (addr - stackBase k) / 0x4000000
  (List.range 64).findSome? fun r =>
    match rangeEntry s k r with
    | some (p, base, size) =>
      if base ≤ g ∧ g < base + size then some (p, (rgEff s (.memc k) (rMemcRanger r)).bit 62) else none
    | none => none

/-- Bytes of the codeword at an address (Table MEM-4). -/
def cwSize (s : State) (i : MemId) (a : Nat) : Nat :=
  match i with
  | .slice _ => 64
  | .store _ | .ls _ => 8
  | .stack k => match rangeAt s k a with
    | some (_, true) => 32
    | _ => 128

/-- Bits of a symbol of the code: 8 in a slice, 16 in a stack, 1 elsewhere. -/
def symBits : MemId → Nat
  | .slice _ => 8
  | .stack _ => 16
  | _ => 1

/-- How many `w`-bit symbols of the low `n` symbols of `x` are nonzero. -/
def badSymbols (w x n : Nat) : Nat := (List.range n).countP fun i => (x >>> (w * i)) % 2 ^ w != 0

/-- What a check finds in a codeword: good, one symbol corrected, uncorrectable, or taken as good with data that
differ (three or more bad symbols, log entry 2). -/
inductive EccResult where
  | clean | corrected | bad | wrong (diff : Nat)
  deriving DecidableEq, Repr

/-- The check of the codeword at base address `a`. -/
def eccCheck (s : State) (i : MemId) (a : Nat) : EccResult :=
  let e := SMap.get {} s.ecc i.key
  if e.poison.contains a then .bad
  else
    let p := SMap.get ⟨0, 0⟩ e.pats a
    if p.dxor = 0 ∧ p.cxor = 0 then .clean
    else
      let w := symBits i
      let n := badSymbols w p.dxor (cwSize s i a * 8 / w) + badSymbols w p.cxor (128 / w)
      if n = 1 then .corrected
      else if n = 2 then .bad
      else if Config.eccPasses p.dxor p.cxor then .wrong (Config.eccDelivers p.dxor p.cxor)
      else .bad

/-- The base addresses of the codewords that `len` bytes from `a` touch. -/
def codewords (s : State) (i : MemId) (a len : Nat) : List Nat :=
  let z := cwSize s i a
  (List.range ((a % z + len + z - 1) / z)).map fun j => a / z * z + z * j

/-- Where errors of a memory are logged. -/
def memSrc : MemId → Nat
  | .slice h | .store h => srcTile h
  | .stack k => srcStack k
  | .ls k => srcGrotto k

/-- The partition that holds a byte of a memory. -/
def memHolder (s : State) (i : MemId) (a : Nat) : Option Nat :=
  match i with
  | .slice h | .store h => partOfCluster s (clusterOfPhys h)
  | .stack k => (rangeAt s k a).map (·.1)
  | .ls k => partOfGrotto s k

/-- The report of an uncorrectable codeword met by a read (R227): log entry, the holder's fault vector or the
memory event vector, and the reader's step withheld. -/
def reportUncorrected (i : MemId) (a : Nat) (reader : Option Nat) (s : State) : State :=
  let kind := match i with | .slice _ => 0 | .store _ => 1 | .stack _ => 2 | .ls _ => 3
  let s := logEvent (memSrc i) .eccUncorrected (kind + 2 ^ 8 * a) s
  let s := match memHolder s i a with
    | some p => raiseFault p s
    | none => raisePF0 2 s
  match reader with
  | some p => withholdRunning p .eccUncorrected s
  | none => s

/-- A drip counter: its register, and the places of COUNT and SPILL, and the register with THRESH. -/
structure DripAt where
  blk : Blk
  off : Nat
  count : Nat
  spill : Nat
  cfg : Nat
  deriving DecidableEq, Repr

/-- The channel of a stack that an address lies in (R206). -/
def channelOf (k a : Nat) : Nat :=
  let o := a - stackBase k
  ((((bitsOf o 16 12) ^^^ (bitsOf o 21 17)) ^^^ (bitsOf o 26 22)) ^^^ (bitsOf o 31 27)) ^^^ (bitsOf o 35 32)
/-- The bank of a channel that an address lies in (R207). -/
def bankOf (k a : Nat) : Nat := bitsOf (a - stackBase k) 35 17 % (if k < 4 then 48 else 32)

/-- The drip counter of an error domain (R230). -/
def dripAt : DripDomain → DripAt
  | .slice h => ⟨.tile h, rTileDrip, 40, 48, rTileDripcfg⟩
  | .store h => ⟨.tile h, rTileDrip, 16, 24, rTileDripcfg⟩
  | .channel k c => ⟨.memc k, rMemcDripc c, 8, 16, rMemcDripcfg⟩
  | .localStore k => ⟨.grt (k.val / 128), rGrtCdripk (k.val % 128), 8, 16, rGrtDripcfg⟩

/-- The drip counter of the domain that a byte of a memory lies in. -/
def memDrip (i : MemId) (a : Nat) : DripAt :=
  match i with
  | .slice h => ⟨.tile h, rTileDrip, 40, 48, rTileDripcfg⟩
  | .store h => ⟨.tile h, rTileDrip, 16, 24, rTileDripcfg⟩
  | .stack k => ⟨.memc k, rMemcDripc (channelOf k a), 8, 16, rMemcDripcfg⟩
  | .ls k => ⟨.grt (k / 128), rGrtCdripk (k % 128), 8, 16, rGrtDripcfg⟩

/-- The AGENT of the core of grotto stack `k` whose bank group an address lies in (R239). -/
def coreOf (k a : Nat) : Nat := (k - 4) * 128 + channelOf k a / 2 * 8 + bankOf k a / 4

/-- An ordinary access to the 128 B unit at an address of grotto stack `k` is queued at its bank group while the
core there is READY (R254); the traverse plans it where it comes from the partition that owns the core (R256). -/
def queueUnitAt (who : Option Nat) (k a : Nat) (s : State) : State :=
  let c := coreOf k a
  let g := s.grotto c
  if g.st = .ready then
    s.setGrotto c { g with queue := (g.queue ++ [BankUnit.mk (who.isSome && partOfGrotto s c == who) false s.cyc]).take 128 }
  else s

/-- Storage filled with zeros and valid check bits (R224, R225). A fill uses no armed injection up (the
model's choice, log entry 92). -/
def memFill (i : MemId) (a len : Nat) (s : State) : State :=
  let e := SMap.get {} s.ecc i.key
  let e' : Ecc := { pats := e.pats.filter fun x => decide (x.1 < a ∨ a + len ≤ x.1)
                    poison := e.poison.filter fun x => decide (x < a ∨ a + len ≤ x) }
  { setMem s i ((memOf s i).fill a len) with ecc := SMap.put i.key e' s.ecc }

/-! Regulators (R212, R215). -/

/-- Charge of a unit in sixths: 128 for a normal unit, 54 for a fine-grain one (R212). -/
def unitCharge (fine : Bool) : Nat := if fine then 54 * 6 else 128 * 6
/-- The key of a regulator. -/
def regKey (p c : Nat) : Nat := p * 32 + c
/-- Depth of a regulator's buckets in sixths. -/
def regDepth (w : Word) : Nat := w.field 40 32 * 256 * 6
/-- A regulator as it stands now: at 1.5 GHz a unit of 0.25 GB/s is a sixth of a byte in each cycle. It is full when
its configuration takes effect. -/
def regNow (s : State) (k p c : Nat) : Reg :=
  let w := rgEff s (.memc k) (rMemcRegpc p c)
  let r := SMap.get ⟨regDepth w, regDepth w, s.cyc⟩ (s.stack k).regs (regKey p c)
  let d := s.cyc - r.at_
  ⟨min (regDepth w) (r.g + d * w.field 8 0), min (regDepth w) (r.c + d * w.field 24 16), s.cyc⟩
/-- The cycle on which a regulator's bucket C holds a charge `q`. -/
def regReady (s : State) (k p c q : Nat) : Nat :=
  let rate := (rgEff s (.memc k) (rMemcRegpc p c)).field 24 16
  s.cyc + (q - (regNow s k p c).c + rate - 1) / rate
/-- A charge `q` taken from both buckets of a regulator, or from C alone where G does not hold it (R212). -/
def regTake (k p c q : Nat) (s : State) : State :=
  let b := regNow s k p c
  s.setStack k { s.stack k with
    regs := SMap.put (regKey p c) ⟨if q ≤ b.g then b.g - q else b.g, b.c - q, s.cyc⟩ (s.stack k).regs }
/-- A unit of stack `k` transferred: it is charged to the partition of its range, once that one's bucket C holds the charge
(R212, R215); one in no range is charged to the maintenance reserve, which bounds nothing. -/
def chargeUnit (k a : Nat) (s : State) : State :=
  match rangeAt s k a with
  | some (p, fine) =>
    let c := channelOf k a
    let q := unitCharge fine
    regTake k p c q (s.upTo (regReady s k p c q))
  | none => s

/-- A fill that covers an address is finished before an access to it goes on (R225). -/
def awaitFill (k x : Nat) (s : State) : State :=
  let g := (x - stackBase k) / 0x4000000
  if s.bup.handed.contains (k, g) then
    memFill (.stack k) (stackBase k + g * 0x4000000) 0x4000000
      { s with bup := { s.bup with handed := s.bup.handed.filter (· != (k, g)) } }
  else s

/-- Bytes of a transfer unit at an address (R208, R218). -/
def unitSize (s : State) (k a : Nat) : Nat := cwSize s (.stack k) a

/-- An ordinary access to `len` bytes of stack `k` by partition `who`, or by what no partition plans: it waits for the fill
of what it reaches; each unit is charged, and queued at the bank group of a READY core. -/
def ordinaryAccess (who : Option Nat) (k a len : Nat) (s : State) : State :=
  if len = 0 then s
  else
    let z := unitSize s k a
    let s := (List.range ((a % z + len + z - 1) / z)).foldl (init := s) fun s j =>
      chargeUnit k (a / z * z + z * j) (awaitFill k (a / z * z + z * j) s)
    if k < 4 then s
    else (List.range ((a % 128 + len + 127) / 128)).foldl (init := s) fun s j => queueUnitAt who k (a / 128 * 128 + 128 * j) s

/-- The report of a drip counter that reaches its threshold (R231). -/
def dripReached (src : Nat) (holder : Option Nat) (s : State) : State :=
  let s := raisePF0 2 (logEvent src .dripThreshold 0 s)
  match holder with
  | some p => raiseEvent p s
  | none => s

/-- `n` corrected codewords in one domain (R230, R231). -/
def dripAdd (d : DripAt) (src : Nat) (holder : Option Nat) (n : Nat) (s : State) : State :=
  if n = 0 then s
  else
    let thr := rf s d.blk d.cfg 7 0
    let c := rf s d.blk d.off (d.count + 7) d.count
    if thr ≤ c then rsat s d.blk d.off (d.spill + 15) d.spill n
    else if c + n < thr then rput s d.blk d.off (d.count + 7) d.count (c + n)
    else
      let s := rput s d.blk d.off (d.count + 7) d.count thr
      dripReached src holder (rsat s d.blk d.off (d.spill + 15) d.spill (c + n - thr))

/-- What a read of a memory gives: its bytes, or the base address of an uncorrectable codeword. -/
inductive MemRead where
  | data (bs : List Byte)
  | uncorrected (a : Nat)
  deriving DecidableEq, Repr

/-- Bytes as they are delivered: where a codeword passes with data that differ, those. -/
def delivered (s : State) (i : MemId) (a : Nat) (bs : List Byte) : List Byte :=
  bs.zipIdx.map fun (b, j) =>
    let z := cwSize s i (a + j)
    match eccCheck s i ((a + j) / z * z) with
    | .wrong d => b ^^^ BitVec.ofNat 8 (d >>> (8 * ((a + j) % z)))
    | _ => b

/-- A read of `len` bytes (R226, R227): `reader` is the partition whose step reads. Corrected codewords count in
the drip counter; an uncorrectable one is reported. -/
def memRead (i : MemId) (a len : Nat) (reader : Option Nat) (s : State) : MemRead × State :=
  let cs := codewords s i a len
  let n := cs.countP fun c => eccCheck s i c == .corrected
  let s' := dripAdd (memDrip i a) (memSrc i) (memHolder s i a) n s
  match cs.find? fun c => eccCheck s i c == .bad with
  | some c => (.uncorrected c, reportUncorrected i c reader s')
  | none => (.data (delivered s i a ((memOf s i).readBytes a len)), s')

/-- A read of 8 bytes of stack `k` by the device for partition `p`, with what follows from it but for its value. -/
def noteRead (p k a : Nat) (s : State) : State := (memRead (.stack k) a 8 (some p) (ordinaryAccess (some p) k a 8 s)).2

/-- The line of a group that a byte of a memory lies in. -/
def GLine.holds (l : GLine) (h : Nat) (i : MemId) (a : Nat) : Bool :=
  match i with
  | .store x => x == h && l.space == .ts && l.addr == a / 64 * 64
  | .slice x => x == h && l.space == .sl && l.addr == a / 64 * 64
  | .stack _ => l.space == .va && l.phys == some (a / 64 * 64)
  | .ls _ => false

/-- The lengths-table lines that a group's appends hold. -/
def GOp.holds (o : GOp) (i : MemId) (a : Nat) : Bool :=
  match o, i with
  | .kvapp _ _ (some x), .stack _ => x == a / 64 * 64
  | _, _ => false

/-- A group before its commit point. -/
def Group.open_ (g : Group) : Bool :=
  match g.phase with
  | .landed _ _ _ => false
  | _ => true

/-- The group marked aborted with a code, unless it is aborted already. -/
def Group.abort (g : Group) (c : Code) : Group := if g.aborted.isSome then g else { g with aborted := some c }

/-- A write by tile `own`'s group (`none`: by any other agent) to `len` bytes aborts every other group that holds
a line of it or used a translation entry in it (R137, R139, R220, R221). -/
def conflicts (own : Option Nat) (i : MemId) (a len : Nat) (s : State) : State :=
  let lines := (List.range ((a % 64 + len + 63) / 64)).map fun j => a / 64 * 64 + 64 * j
  { s with tiles := s.tiles.map fun (h, t) =>
      if own = some h then (h, t)
      else match t.group with
        | none => (h, t)
        | some g =>
          if g.open_ && (lines.any (fun x => g.lines.any (fun l => l.holds h i x) || g.ops.any (fun o => o.holds i x))
              || (match i with
                  | .stack _ => g.used.any fun x => decide (x < a + len ∧ a < x + 8)
                  | _ => false))
          then (h, { t with group := some (g.abort .cgAbortConflict) }) else (h, t) }

/-- The injection port of a memory, where one is armed: the codeword that it addresses and the pattern it stores
(R229). -/
def armed (s : State) (i : MemId) : Option (Blk × Nat × Nat × ErrPat) :=
  match i with
  | .slice h =>
    let w := rg s (.tile h) rTileInjaddr
    let m := rg s (.tile h) rTileInjmask
    if w.bit 63 && !w.bit 61 then
      let a := w.field 27 2 * 4
      some (.tile h, rTileInjaddr, a, ⟨m.field 31 0 <<< (8 * (a % 64)), m.field 63 32⟩)
    else none
  | .store h =>
    let w := rg s (.tile h) rTileInjaddr
    let m := rg s (.tile h) rTileInjmask
    if w.bit 63 && w.bit 61 then
      let a := w.field 27 2 * 4
      some (.tile h, rTileInjaddr, a, ⟨m.field 31 0 <<< (8 * (a % 8)), m.field 39 32⟩)
    else none
  | .stack k =>
    let w := rg s (.memc k) rMemcInjaddr
    let m := rg s (.memc k) rMemcInjmask
    if w.bit 63 then
      let a := stackBase k + w.field 35 2 * 4
      let z := cwSize s i a
      some (.memc k, rMemcInjaddr, a, ⟨m.field 31 0 <<< (8 * (a % z)), m.field 63 32 <<< (32 * w.field 61 60)⟩)
    else none
  | .ls _ => none

/-- The patterns and poison after a write of `len` bytes at `a` (R228): a whole codeword is clean, a codeword
written in part keeps its poison, or is poisoned where it was uncorrectable. -/
def eccAfterWrite (s : State) (i : MemId) (a len : Nat) : Ecc :=
  (codewords s i a len).foldl (init := SMap.get {} s.ecc i.key) fun e c =>
    let whole := decide (a ≤ c) && decide (c + cwSize s i c ≤ a + len)
    if whole then { e with pats := SMap.drop c e.pats, poison := e.poison.filter (· != c) }
    else if eccCheck s i c == .bad then
      { e with pats := SMap.drop c e.pats, poison := if e.poison.contains c then e.poison else c :: e.poison }
    else { e with pats := SMap.drop c e.pats }

/-- A write of bytes to a memory, by tile `own`'s commit group or by another agent: the bytes change, poison and
patterns follow R228, an armed injection port that the write covers stores its pattern and disarms, and groups
that hold the lines abort. -/
def memWrite (own : Option Nat) (i : MemId) (a : Nat) (bs : List Byte) (s : State) : State :=
  if bs.isEmpty then s
  else
    let e := eccAfterWrite s i a bs.length
    let inj := armed s i
    let s1 := setMem s i ((memOf s i).writeBytes a bs)
    let s2 := { s1 with ecc := if e = {} then SMap.drop i.key s1.ecc else SMap.put i.key e s1.ecc }
    let s3 := match inj with
      | some (b, o, w, p) =>
        if a ≤ w ∧ w + 4 ≤ a + bs.length then
          let c := w / cwSize s i w * cwSize s i w
          rput { s2 with ecc := SMap.put i.key { e with pats := SMap.put c p e.pats } s2.ecc } b o 63 63 0
        else s2
      | none => s2
    conflicts own i a bs.length s3

/-- Listed bytes gathered into runs of consecutive addresses. -/
def byteRuns : SMap Byte → List (Nat × List Byte)
  | [] => []
  | (a, b) :: r =>
    match byteRuns r with
    | (c, bs) :: rest => if c = a + 1 then (a, b :: bs) :: rest else (a, [b]) :: (c, bs) :: rest
    | [] => [(a, [b])]

/-- A masked write: the runs of masked bytes, one after another. -/
def memWriteMap (own : Option Nat) (i : MemId) (bs : SMap Byte) (s : State) : State :=
  (byteRuns bs).foldl (init := s) fun s r => memWrite own i r.1 r.2 s

end Sys2Proof.Machine
end

