-- ==== Sys2Proof/Machine/HostQueue.lean ====
section
/-! DEFINITION. Host queues: jobs opened and closed by START and DONE units, completions (R328 to R332). -/
namespace Sys2Proof.Machine

/-- The four counters of a host queue. -/
inductive QueueRole where
  | sub | start | done | cons
  deriving DecidableEq, Repr

/-- The word that configures queue `q` of partition `p`, in effect. -/
def queueCfg (s : State) (p q : Nat) : Word := rgEff s (.part p) (rPartQcfgq q)
/-- Whether a queue is VALID. -/
def queueValid (s : State) (p q : Nat) : Bool := (queueCfg s p q).bit 63
/-- Group × 64 + index of one of a queue's counters. -/
def queueCounter (s : State) (p q : Nat) : QueueRole → Nat
  | .sub => (queueCfg s p q).field 47 36
  | .start => (queueCfg s p q).field 35 24
  | .done => (queueCfg s p q).field 23 12
  | .cons => (queueCfg s p q).field 11 0
/-- The value of a host-visible counter by group × 64 + index. -/
def hvValue (s : State) (i : Nat) : Nat := (SMap.get 0 s.hv i).toNat
/-- Queue `q` of a partition. -/
def Part.hqOf (x : Part) (q : Nat) : HQueue := SMap.get {} x.hq q
/-- The state with a host queue replaced. -/
def setHq (s : State) (p q : Nat) (x : HQueue) : State :=
  s.updPart p fun y => { y with hq := SMap.put q x y.hq }
/-- Address of job slot `n` of a queue. -/
def jobSlot (s : State) (p q n : Nat) : Nat :=
  (rgEff s (.part p) (rPartQjobq q)).field 47 6 * 64 + 64 * (n % 2 ^ (queueCfg s p q).field 59 56)
/-- The bytes of stack storage at a device physical address, as a number; 0 outside the stacks. -/
def physNat (s : State) (a len : Nat) : Nat :=
  match placeOf a with
  | .stack k x => natOfBytes (delivered s (.stack k) x (s.mem.readBytes x len))
  | _ => 0
/-- Job `n` as its record gives it (Table HIF-5), opened in the current step: breaks and withholdings that the
step already has count (R330). -/
def readJob (s : State) (p q n : Nat) (ovf : Bool) : Job :=
  let a := jobSlot s p q n
  let x := s.part p
  let va := physNat s (a + 8) 8
  let k := physNat s (a + 4) 4
  { slot := n, jobId := physNat s a 4, nseq := k, lenva := va
    overflow := ovf, firstStep := curStep s p, code := BitVec.ofNat 16 (x.withheld.headD 0)
    dbrk := x.broken.foldl (fun m c => m ||| 2 ^ c) 0
    heldCnt := x.heldMarks.countP fun m => decide (va ≤ m ∧ m < va + 64 * k) }
/-- The saddle's read of the record of job `n`: an ordinary access of no unit of the partition (R254, R256), charged and checked
as every read is. -/
def noteJobRead (p q n : Nat) (s : State) : State :=
  match placeOf (jobSlot s p q n) with
  | .stack k x => (memRead (.stack k) x 16 (some p) (ordinaryAccess none k x 16 s)).2
  | _ => s
/-- Open jobs: not closed. -/
def HQueue.open_ (h : HQueue) : List Job := h.jobs.filter fun j => !j.closed
/-- Jobs submitted and not opened. -/
def unopened (s : State) (p q : Nat) : Nat := hvValue s (queueCounter s p q .sub) - ((s.part p).hqOf q).opened

/-- The completion record of a job (Table HIF-7), less PHASE and SERIAL. -/
def completionOf (q : Nat) (j : Job) (code : Code) (last : Nat) : List Byte :=
  bytesOf 4 j.jobId ++ bytesOf 2 code.toNat
    ++ bytesOf 2 (if 0 < j.heldCnt then (Code.kvPoolEmpty).toNat else 0)
    ++ bytesOf 4 j.heldCnt ++ bytesOf 2 (j.dbrk / 2 * 2) ++ [0, BitVec.ofNat 8 q]
    ++ bytesOf 4 j.firstStep ++ bytesOf 4 last

/-- A completion numbered `n` gets its SERIAL and PHASE (R331). -/
def numbered (n clog : Nat) (rec : List Byte) : List Byte :=
  let phase := (n / 2 ^ clog + 1) % 2
  rec.set 14 (BitVec.ofNat 8 phase) ++ bytesOf 8 n

/-- A completion is formed: the image goes into the job record and waits for the ring (R330). -/
def formCompletion (p q : Nat) (j : Job) (code : Code) (s : State) : State :=
  let h := (s.part p).hqOf q
  let img := numbered (h.c + h.waiting.length) ((queueCfg s p q).field 55 52) (completionOf q j code (curStep s p))
  let s := match placeOf (jobSlot s p q j.slot + 0x20) with
    | .stack k x => memWrite none (.stack k) x img (ordinaryAccess none k x img.length s)
    | _ => s
  let h := (s.part p).hqOf q
  setHq s p q { h with waiting := h.waiting ++ [img] }

/-- The code of a job's completion: first withheld step, else QUEUE_FULL for an overflow job, else OK (R330). -/
def Job.result (j : Job) : Code := if j.code ≠ 0 then j.code else if j.overflow then .queueFull else .ok

/-- One unit of START (R329). -/
def openJob (p q : Nat) (s : State) : State :=
  if unopened s p q = 0 then s
  else
    let h := (s.part p).hqOf q
    let ovf := decide (8 ≤ h.open_.length)
    let s := noteJobRead p q h.opened (if ovf then rput s (.part p) (rPartQstatq q) 1 1 1 else s)
    setHq s p q { h with opened := h.opened + 1, jobs := h.jobs ++ [readJob s p q h.opened ovf] }

/-- The oldest open job closed. -/
def closeOldest : List Job → List Job
  | [] => []
  | j :: r => if j.closed then j :: closeOldest r else { j with closed := true } :: r

/-- One unit of DONE (R329). -/
def closeJob (p q : Nat) (s : State) : State :=
  let h := (s.part p).hqOf q
  if h.open_ ≠ [] then setHq s p q { h with jobs := closeOldest h.jobs }
  else if unopened s p q ≠ 0 then
    let j := { readJob s p q h.opened false with dbrk := 0, heldCnt := 0, closed := true }
    let s := noteJobRead p q h.opened s
    formCompletion p q j .wrongState (setHq s p q { h with opened := h.opened + 1 })
  else
    let s := rput s (.part p) (rPartQstatq q) 0 0 1
    raiseFault p (logEvent (srcPart p) .wrongState 0 s)

/-- `n` units, one after another. -/
def repeatUnits (f : State → State) : Nat → State → State
  | 0, s => s
  | n + 1, s => repeatUnits f n (f s)

/-- What an add of `amount` to the host-visible counter `i` (group × 64 + index) does to the queues of its
partition (R329). Units of START beyond the jobs submitted open nothing; DONE units beyond the jobs that are open
or unopened are orphans, and one report stands for those of one add. -/
def queueUnits (p i amount : Nat) (s : State) : State :=
  (List.range 16).foldl (init := s) fun s q =>
    if queueValid s p q then
      let s := if queueCounter s p q .start = i then
          repeatUnits (openJob p q) (min amount (unopened s p q)) s else s
      if queueCounter s p q .done = i then
        let n := ((s.part p).hqOf q).open_.length + unopened s p q
        repeatUnits (closeJob p q) (min amount (n + 1)) s
      else s
    else s

/-- At the end of a step, the completions of the jobs closed in it are formed, in order of opening (R330). -/
def formClosed (p : Nat) (s : State) : State :=
  (List.range 16).foldl (init := s) fun s q =>
    let h := (s.part p).hqOf q
    let s' := (h.jobs.filter (·.closed)).foldl (init := s) fun s j => formCompletion p q j j.result s
    let h' := (s'.part p).hqOf q
    if h.jobs = [] then s else setHq s' p q { h' with jobs := h'.jobs.filter fun j => !j.closed }

/-- UNLOAD closes every open job and completes it with WRONG_STATE (R332). -/
def closeAllWrong (p : Nat) (s : State) : State :=
  (List.range 16).foldl (init := s) fun s q =>
    let h := (s.part p).hqOf q
    if h.jobs = [] then s
    else
      let s' := h.jobs.foldl (init := s) fun s j => formCompletion p q j .wrongState s
      let h' := (s'.part p).hqOf q
      setHq s' p q { h' with jobs := [] }

/-- PART_QSTATq as it reads. -/
def queueStat (s : State) (p q : Nat) : Word :=
  let h := (s.part p).hqOf q
  let w := rg s (.part p) (rPartQstatq q)
  let w := (w.put 63 32 (h.c % 2 ^ 32)).put 31 16 (h.waiting.length + (h.jobs.filter (·.closed)).length)
  (w.put 15 12 (min 15 h.open_.length)).putBit 2 (!h.waiting.isEmpty && !portUp s (partPort s p))

end Sys2Proof.Machine
end

