-- ==== Sys2Proof/Machine/Counters.lean ====
section
/-! DEFINITION. Sync counters: holders (Table SYNC-1), values, adds and what they meet (R163 to R178). -/
namespace Sys2Proof.Machine

/-- The holder of a counter: physical tile `h` carrying logical tile `t`, a grotto core by AGENT, a host-visible
group. -/
inductive Holder where
  | tile (h t i : Nat) | grotto (k i : Nat) | group (g i : Nat)
  deriving DecidableEq, Repr

/-- The holder that Table SYNC-1 gives a counter; `none` where it does not exist (R164). -/
def holderOf (s : State) (c : Cnt) : Option Holder :=
  if c.block < 0x200 then
    if c.index < 128 then (physOf s c.block).map fun h => .tile h c.block c.index else none
  else if c.block < 0x210 then
    if c.index < 256 then
      let b := c.block - 0x200
      some (.grotto (b / 4 * 128 + (b % 4) * 32 + c.index / 8) (c.index % 8))
    else none
  else if 0x400 ≤ c.block ∧ c.block < 0x440 then
    if c.index < 64 then some (.group (c.block - 0x400) c.index) else none
  else none

/-- The partition that holds a counter (R165). -/
def holderPart (s : State) : Holder → Option Nat
  | .tile _ t _ => partOfTile s t
  | .grotto k _ => partOfGrotto s k
  | .group g _ => partOfGroup s g

/-- The value of a counter. -/
def holderValue (s : State) : Holder → Nat
  | .tile h _ i => (SMap.get 0 (s.tile h).cnt i).toNat
  | .grotto k i => (SMap.get 0 (s.grotto k).cnt i).toNat
  | .group g i => hvValue s (g * 64 + i)

/-- The saturated flag of a counter. -/
def holderSat (s : State) : Holder → Bool
  | .tile h _ i => (s.tile h).sat.contains i
  | .grotto k i => (s.grotto k).sat.contains i
  | .group g i => s.hvSat.contains (g * 64 + i)

/-- The state with a counter's value. -/
def setHolder (x : Holder) (v : Nat) (s : State) : State :=
  match x with
  | .tile h _ i => s.updTile h fun t => { t with cnt := SMap.put i (BitVec.ofNat 64 v) t.cnt }
  | .grotto k i => s.setGrotto k { s.grotto k with cnt := SMap.put i (BitVec.ofNat 64 v) (s.grotto k).cnt }
  | .group g i =>
    let j := g * 64 + i
    { s with hv := SMap.put j (BitVec.ofNat 64 v) s.hv
             hvWas := if (SMap.get (s.cyc + 1, 0) s.hvWas j).1 = s.cyc then s.hvWas
               else SMap.put j (s.cyc, (SMap.get 0 s.hv j).toNat) s.hvWas }

/-- The state with a counter's saturated flag set. -/
def setSat (x : Holder) (s : State) : State :=
  match x with
  | .tile h _ i => s.updTile h fun t => { t with sat := i :: t.sat }
  | .grotto k i => s.setGrotto k { s.grotto k with sat := i :: (s.grotto k).sat }
  | .group g i => { s with hvSat := (g * 64 + i) :: s.hvSat }

/-- Where SYNC_SATURATED of a counter is logged (R167). -/
def holderSrc : Holder → Nat
  | .tile h _ _ => srcTile h
  | .grotto k _ => srcGrotto k
  | .group g _ => srcGroup g

/-- The device's own ID (R295). -/
def devId (s : State) : Nat := rf s .fab rFabDevid 13 0
/-- The 34-bit identifier of a counter of this device (R163). -/
def cntId (s : State) (c : Cnt) : Nat := devId s * 2 ^ 20 + c.block * 256 + c.index

/-- Row-end hops of a logical tile (R176). -/
def rowEnd (t : Nat) : Nat := if t < 256 then 17 - t % 16 else t % 16 + 1
/-- Mesh hops between two logical tiles of one peak (R176). -/
def meshHops (a b : Nat) : Nat :=
  let d (x y : Nat) : Nat := if x ≤ y then y - x else x - y
  let dc := d (a % 16) (b % 16)
  if a / 16 = b / 16 then dc else d (a / 16) (b / 16) + dc + 1
/-- The peak that drives grotto stack `g`: G0 and G1 peak A, G2 and G3 peak B (Table PKG-2). -/
def grottoPeak (g : Nat) : Nat := g / 2

/-- Who signals: a unit of logical tile `t`, or a grotto core. -/
inductive Signaller where
  | tile (t : Nat) | grotto (k : Nat)
  deriving DecidableEq, Repr

/-- Whether a module is HELD or narrowed (R338). -/
def moduleDegraded (s : State) (m : Nat) : Bool :=
  let w := rg s .d2d (rD2dModstatm m)
  w.field 2 0 == 3 || (w.field 2 0 == 2 && w.field 17 16 != 3)
/-- Whether the ridge link of a peak is degraded. -/
def linkDegraded (s : State) (peak : Nat) : Bool := (List.range 64).any fun m => moduleDegraded s (peak * 64 + m)
/-- FCLK cycles of a passage between a mesh and the saddle (R338). -/
def passage (s : State) (peak : Nat) : Nat := if linkDegraded s peak then 28 else 24
/-- FCLK cycles of a crossing between the meshes (R24). -/
def crossing (s : State) : Nat := passage s 0 + passage s 1

/-- The peak that drives stack `k` (Table PKG-2). -/
def drivingPeak (k : Nat) : Nat := k % 4 / 2
/-- FCLK cycles from the issue of a guaranteed request by a tile to its end (Table MEM-3): the other peak's stacks lie two
crossings further (R24). -/
def stackLatency (s : State) (k : Nat) (t : Fin 512) : Nat :=
  if drivingPeak k = t.val / 256 then 320 else 320 + 2 * crossing s

/-- Table SYNC-2: FCLK cycles from a signal to its counter write; other-peak figures include the crossing (R24). -/
def signalLatency (s : State) : Signaller → Holder → Nat
  | .tile a, .tile _ b _ =>
    if a = b then 2
    else if a / 256 = b / 256 then 4 + 2 * meshHops a b
    else 4 + 2 * (rowEnd a + rowEnd b) + crossing s
  | .tile a, .group _ _ => 4 + 2 * rowEnd a + passage s (a / 256)
  | .tile a, .grotto k _ => if grottoPeak (k / 128) = a / 256 then 64 else 64 + crossing s
  | .grotto k, .grotto m _ =>
    if k = m then 4
    else if k / 128 = m / 128 then 16
    else if grottoPeak (k / 128) = grottoPeak (m / 128) then 64 else 64 + crossing s
  | .grotto k, .tile _ b _ => if grottoPeak (k / 128) = b / 256 then 64 else 64 + crossing s
  | .grotto _, .group _ _ => 40

/-- Saddle-to-tile latency of a wake (Table SYNC-2). -/
def wakeLatency (s : State) (t : Nat) : Nat := 4 + 2 * rowEnd t + passage s (t / 256)

/-- A wait on counter `c` of which the write on cycle `now` brings the counter to `v`: met by it where the
target is reached; for a host-visible counter (`hv`) the saddle's wake arrives `lat` cycles later (R170, R172). -/
def Waiting.meet (w : Waiting) (c : Cnt) (v now : Nat) (hv : Bool) (lat : Nat) : Waiting :=
  match w with
  | .counter c' t Option.none Option.none =>
    if c' = c ∧ t ≤ v then
      if hv then .counter c' t (some (now + lat)) Option.none else .counter c' t Option.none (some now)
    else w
  | _ => w

/-- The counter of a wait clause, where WEN is 1 (R149): WCNT is bits 83:64 and WVAL bits 63:0 of the clause
block; block 0xFFF is the tile's own. -/
def QEntry.waitCnt (e : QEntry) (t : Nat) : Option (Cnt × Nat) :=
  let x := e.clause.toNat
  if bitsOf x 84 84 = 1 then
    let b := bitsOf x 83 72
    some (⟨if b = 0xFFF then t else b, bitsOf x 71 64⟩, bitsOf x 63 0)
  else none

/-- The head of a queue of logical tile `t` meets its wait clause by the write that brings `c` to `v`. -/
def Queue.meet (q : Queue) (t : Nat) (c : Cnt) (v now : Nat) (hv : Bool) (lat : Nat) : Queue :=
  match q.held with
  | e :: _ =>
    match e.waitCnt t with
    | some (c', tgt) =>
      if q.headReady && q.headMet.isNone && q.wake.isNone && decide (c' = c ∧ tgt ≤ v) then
        if hv then { q with wake := some (now + lat) } else { q with headMet := some (now + 12) }
      else q
    | none => q
  | [] => q

/-- The waits of physical tile `h`, carrying `t`, that a write meets. -/
def meetTile (h t : Nat) (c : Cnt) (v : Nat) (hv : Bool) (s : State) : State :=
  let lat := wakeLatency s t
  s.updTile h fun x =>
    { x with
      ctx := x.ctx.map fun e => (e.1, { e.2 with wait := e.2.wait.meet c v s.cyc hv lat })
      qs := x.qs.map fun e => (e.1, e.2.meet t c v s.cyc hv lat) }

/-- The wait of a grotto core that a write meets, and its launch where the write makes the launch counter exceed
LAUNCHES while the core is IDLE (R243): six grotto cycles are twelve FCLK cycles. -/
def meetGrotto (k i : Nat) (c : Cnt) (v : Nat) (s : State) : State :=
  let g := s.grotto k
  let g := { g with wait := g.wait.meet c v s.cyc false 0 }
  s.setGrotto k
    (if i = 0 ∧ g.st = .idle ∧ g.launchDue = none ∧ g.launches.toNat < v then { g with launchDue := some (s.cyc + 12) }
     else g)

/-- What a counter write meets: waits of its holder, launches, wakes from the saddle. -/
def meetWaits (c : Cnt) (x : Holder) (v : Nat) (s : State) : State :=
  match x with
  | .tile h t _ => meetTile h t c v false s
  | .grotto k i => meetGrotto k i c v s
  | .group _ _ =>
    s.tiles.foldl (init := s) fun s e =>
      match logOf s e.1 with
      | some t => meetTile e.1 t c v true s
      | none => s

/-- Counts an add that a partition or device reset absorbs (Table BUP-6). -/
def absorbAdd (s : State) : State := rsat s .rst rRstStat 31 16 1

/-- Whether adds into a holder are absorbed by a reset (Table BUP-6). -/
def addAbsorbed (s : State) (x : Holder) : Bool :=
  match holderPart s x with
  | some p => partResetting s p
  | none => s.bup.resets.contains .device

/-- The add of amount `a` to a counter (R167): saturation, its report, and the waits that the write meets. -/
def addTo (c : Cnt) (x : Holder) (a : Nat) (s : State) : State :=
  let v := holderValue s x
  let excess := decide (2 ^ 64 ≤ v + a)
  let first := excess && !holderSat s x
  let s := setHolder x (min (v + a) (2 ^ 64 - 1)) s
  let s := if first then raiseEventOf (holderPart s x) (logEvent (holderSrc x) .syncSaturated (cntId s c) (setSat x s)) else s
  meetWaits c x (min (v + a) (2 ^ 64 - 1)) s

/-- Whether a repair may go on: the cluster is paused, or its partition's traverse does not run, or no partition holds it. -/
def repairMayRun (s : State) (r : Nat) : Bool :=
  match partOfCluster s r with
  | some p => !traverseRuns s p || clusterPaused s r
  | none => true

/-- The repair under way in a tile's row, not one that ends with the row degraded. -/
def shiftOf (s : State) (r : Nat) : Option RowRepair :=
  (s.bup.shifting.find? fun e => e.1 == r && !e.2.degraded).map (·.2)

/-- Whether the counters of a logical tile are moving in a row-shift repair (R166): those of a shifted tile from the start of
its slice's migration to the map switch, highest column first; those of the lost tile from the start of the repair, and
where they cannot be read until its partition is reset (the model's reading, log entry 83). -/
def countersMoving (s : State) (c : Cnt) : Bool :=
  decide (c.block < 0x200) &&
    ((match shiftOf s (clusterOf c.block) with
      | some x => c.block == x.lidx ||
          (decide (x.lidx < c.block ∧ 15 ≤ c.block % 16 + x.moved) && repairMayRun s (clusterOf c.block))
      | none => false) ||
    match partOfTile s c.block with
    | some p => (s.part p).repairs.any fun r => r.1 == clusterOf c.block && r.2 % 17 == c.block % 16
    | none => false)

/-- An add that reaches a counter: nothing for an amount of 0 or a counter that no longer exists; absorbed by a
reset of its holder; held while the counter moves (R166); else R167, and the host queues of a host-visible counter (R329). -/
def applyAdd (c : Cnt) (a : Nat) (s : State) : State :=
  match holderOf s c with
  | none => s
  | some x =>
    if a = 0 then s
    else if addAbsorbed s x then absorbAdd s
    else if countersMoving s c then { s with adds := s.adds ++ [⟨c, a, s.cyc⟩] }
    else
      let s := addTo c x a s
      match x with
      | .group g i =>
        match partOfGroup s g with
        | some p => queueUnits p (g * 64 + i) a s
        | none => s
      | _ => s

/-- An add issued toward a counter of this device, which reaches it after the latency of Table SYNC-2 (R177). -/
def issueAdd (src : Signaller) (c : Cnt) (a : Nat) (s : State) : State :=
  match holderOf s c with
  | some x => { s with adds := s.adds ++ [⟨c, a, s.cyc + signalLatency s src x⟩] }
  | none => s

/-- An add of 1 that the device makes to an own-block counter of logical tile `t` (R138, R144), due on a cycle. -/
def issueAt (c : Cnt) (a due : Nat) (s : State) : State := { s with adds := s.adds ++ [⟨c, a, due⟩] }

/-- An add issued by a unit counts toward the signal entries of the running step (R182). -/
def noteIssued (p agent unit : Nat) (id amount : Nat) (s : State) : State :=
  s.updPart p fun x => { x with issued := ⟨agent, unit, id, amount, stepCycles s p⟩ :: x.issued }

/-- The cycle on which the next adds reach counter `c`. -/
def nextDue (s : State) (c : Cnt) : Option Nat :=
  (s.adds.filter fun x => x.c == c).foldl (init := none) fun m x =>
    match m with
    | none => some x.due
    | some d => some (min d x.due)

/-- COUNTER_ADD: all adds that reach `c` on the next cycle on which any does are applied as one (R168). While
the counter is moving they are held (R166). -/
def execCounterAdd (c : Cnt) (s : State) : Host.Outcome State Fault Refusal :=
  match nextDue s c with
  | none => .next s
  | some d =>
    if countersMoving s c then .next s
    else
      let now := s.adds.filter fun x => x.c == c && x.due == d
      let s := { s.upTo d with adds := s.adds.filter fun x => !(x.c == c && x.due == d) }
      .next (applyAdd c (now.foldl (fun m x => m + x.amount) 0) s)

end Sys2Proof.Machine
end

