-- ==== Sys2Proof/Machine/Route.lean ====
section
/-! DEFINITION. Forwarding of fabric traffic and failure notices (R295, R296, R303). -/
namespace Sys2Proof.Machine

/-- STATE of link `l` (FAB_LINKSTATl). -/
def linkState (s : State) (l : Nat) : Nat := rf s .fab (rFabLinkstatl l) 40 38
/-- STATE DOWN. -/
def linkDOWN : Nat := 0
/-- STATE TRAIN. -/
def linkTRAIN : Nat := 1
/-- STATE MEASURE. -/
def linkMEASURE : Nat := 3
/-- STATE UP. -/
def linkUP : Nat := 4
/-- STATE REALIGN. -/
def linkREALIGN : Nat := 5
/-- STATE FAULT. -/
def linkFAULT : Nat := 6
/-- Whether a link is UP. -/
def linkIsUp (s : State) (l : Nat) : Bool := linkState s l == linkUP

/-- WLOCK. -/
def wlock (s : State) (l : Nat) : Nat := rf s .fab (rFabLinklatl l) 47 32

/-! Lanes (R290). -/

/-- Lanes in a set. -/
def laneWidth (m : BitVec 4) : Nat := (List.range 4).countP m.getLsbD
/-- The lowest lane of a set. -/
def lowestLane (m : BitVec 4) : BitVec 4 :=
  match (List.range 4).find? m.getLsbD with
  | some i => BitVec.ofNat 4 (2 ^ i)
  | none => 0
/-- The lanes that a link uses where those in `m` have trained. -/
def laneSet (m : BitVec 4) : BitVec 4 :=
  if m = 0xF then 0xF else if m &&& 3 = 3 then 3 else if m &&& 12 = 12 then 12 else lowestLane m
/-- Lanes in use by a link, or those that a realigning one has left. -/
def linkWidth (s : State) (l : Nat) : Nat :=
  if linkIsUp s l then rf s .fab (rFabLinkstatl l) 43 41 else laneWidth (laneSet (s.link l).lanesWanted)
/-- FCLK cycles per unit at a link's width (R288). -/
def unitCycles (s : State) (l : Nat) : Nat := 4 / max 1 (linkWidth s l)

/-! Forwarding. -/

/-- The valid forwarding entry toward a device. -/
def fwdEntry (s : State) (e : Nat) : Option Word :=
  let w := rg s .fab (rFabFwde e)
  if w.bit 63 then some w else none

/-- The link through which traffic toward device `e` leaves, or the code of Table FAB-4 (R295). -/
def egress (s : State) (managed : Bool) (e : Nat) : Except Code Nat :=
  match fwdEntry s e with
  | none => .error .fabUnroutable
  | some w =>
    if managed then
      if linkIsUp s (w.field 11 6) then .ok (w.field 11 6)
      else if w.bit 62 && linkIsUp s (w.field 17 12) then .ok (w.field 17 12)
      else .error .linkFault
    else if linkIsUp s (w.field 5 0) then .ok (w.field 5 0) else .error .linkFault

/-- Failure notices received: log entry, FAB_FAILLAST, the source partition's fault vector (R303). -/
def takeNotice (n : Notice) (s : State) : State :=
  let s := logEvent srcFabric n.code 0 s
  let s := rset s .fab rFabFaillast (BitVec.ofNat 64
    (n.dev.toNat * 2 ^ 50 + n.part.val * 2 ^ 45 + n.lidx % 1024 * 2 ^ 35 + n.unit % 16 * 2 ^ 31 + 2 ^ 16 + n.code.toNat))
  raiseFault n.part s

/-- The link that traffic toward device `e` waits for where none of its links is UP: one that realigns (R292), so that
it is not down (R295). -/
def realigning (s : State) (managed : Bool) (e : Nat) : Option Nat :=
  match fwdEntry s e with
  | none => none
  | some w =>
    if managed then
      if linkState s (w.field 11 6) = linkREALIGN then some (w.field 11 6)
      else if w.bit 62 && linkState s (w.field 17 12) == linkREALIGN then some (w.field 17 12)
      else none
    else if linkState s (w.field 5 0) = linkREALIGN then some (w.field 5 0) else none

/-! Buffers and credits (R291, R296, R303). -/

/-- Units of a transit: a header unit and its data units (R298). -/
def Transit.units : Transit → Nat
  | .xfer _ data => 1 + data.length / 64
  | .notice _ => 1
/-- Whether it is of the managed class; notices are (R303). -/
def Transit.managed : Transit → Bool
  | .xfer h _ => h.managed
  | .notice _ => true
/-- The device that it travels to. -/
def Transit.dst : Transit → Nat
  | .xfer h _ => h.dstDev.toNat
  | .notice n => n.dst.toNat
/-- Whether it is on VC1. -/
def Transit.onVC1 : Transit → Bool
  | .xfer h _ => h.vc1
  | .notice n => n.vc1
/-- Units of what waits, less those sent. -/
def waitingUnits (ps : List Pend) : Nat := (ps.map fun p => p.body.units - p.sent).sum
/-- Units in chunks. -/
def chunkUnits (cs : List Chunk) : Nat := (cs.map (·.units)).sum

/-- The first `room` units of what waits, each with the receive buffer that they hold, and what is left. -/
def drawUnits : Nat → List Pend → List (Chunk × Option (Nat × Bool)) × List Pend
  | _, [] => ([], [])
  | room, p :: r =>
    let left := p.body.units - p.sent
    if room = 0 then ([], p :: r)
    else if room < left then ([(⟨p.body, p.sent, room⟩, p.src)], { p with sent := p.sent + room } :: r)
    else
      match drawUnits (room - left) r with
      | (cs, rest) => ((⟨p.body, p.sent, left⟩, p.src) :: cs, rest)

/-- `n` units have left a receive buffer: their credits are owed to the sender (R303). -/
def freeUnits (src : Option (Nat × Bool)) (n : Nat) (s : State) : State :=
  match src with
  | none => s
  | some (l, vc1) =>
    let k := s.link l
    s.setLink l (if vc1 then { k with owed1 := k.owed1 + n } else { k with owed0 := k.owed0 + n })

/-- An UP link sends what its replay buffer of 2,048 units has room for, and the managed classes what their credits admit:
scheduled units first (R301), then VC1, then VC0 (log entry 98). -/
def pump (l : Nat) (s : State) : State :=
  if !linkIsUp s l then s
  else
    let k := s.link l
    let room := 2048 - chunkUnits k.buf
    let a := drawUnits room k.sched
    let room := room - chunkUnits (a.1.map (·.1))
    let b := drawUnits (min room k.credit1) k.vc1
    let nb := chunkUnits (b.1.map (·.1))
    let c := drawUnits (min (room - nb) k.credit0) k.vc0
    let all := a.1 ++ b.1 ++ c.1
    let s := s.setLink l { k with
      sched := a.2, vc1 := b.2, vc0 := c.2, buf := k.buf ++ all.map (·.1)
      credit1 := k.credit1 - nb, credit0 := k.credit0 - chunkUnits (c.1.map (·.1)) }
    all.foldl (init := s) fun s x => freeUnits x.2 x.1.units (s.send (.fabric l x.1))

/-- What a transit carries once it leaves through link `l`: managed units on VC1 from a link with DLINE on (R296); for a
transfer the transmit or transit segment and the link of Table FAB-3, and the narrowest width so far (R301). -/
def Transit.leaving (s : State) (l : Nat) (x : Transit) : Transit :=
  let dline := rf s .fab (rFabLinkctrll l) 3 3 == 1
  match x with
  | .xfer h data => .xfer { h with
      vc1 := h.managed && (h.vc1 || dline)
      latency := h.latency + (if h.srcDev.toNat = devId s then 100 else 420) + wlock s l
      cycles := max h.cycles (unitCycles s l) } data
  | .notice n => .notice { n with vc1 := n.vc1 || dline }

/-- A transit waits for link `l` in its class; it leaves at once where the link lets it. -/
def emitOn (l : Nat) (src : Option (Nat × Bool)) (x : Transit) (s : State) : State :=
  let y := x.leaving s l
  let p : Pend := { body := y, src := src }
  let k := s.link l
  pump l (s.setLink l (if !y.managed then { k with sched := k.sched ++ [p] }
    else if y.onVC1 then { k with vc1 := k.vc1 ++ [p] } else { k with vc0 := k.vc0 ++ [p] }))

/-- The link for a transit: one that is UP, or one that realigns (R292, R295). -/
def wayOut (s : State) (x : Transit) : Option Nat :=
  match egress s x.managed x.dst with
  | .ok l => some l
  | .error _ => realigning s x.managed x.dst

/-! Notices and forwarding (R295, R303). -/

/-- The notice of a failed transfer travels to its source; one that finds no route is lost. -/
def sendNotice (h : FabHeader) (code : Code) (s : State) : State :=
  let n : Notice := ⟨h.srcDev, false, h.dstDev, h.srcPart, h.srcTile, h.srcUnit, code⟩
  if h.srcDev.toNat = devId s then takeNotice n s
  else
    match wayOut s (.notice n) with
    | some l => emitOn l none (.notice n) s
    | none => s

/-- What has no way on is dropped, counted and logged; the source of a transfer has a notice (R295). -/
def dropTransit (x : Transit) (s : State) : State :=
  let s := logEvent srcFabric .fabUnroutable 0 (rsat s .fab rFabDropcnt 31 0 1)
  match x with
  | .xfer h _ => sendNotice h .fabUnroutable s
  | .notice _ => s

/-- A transit is forwarded toward its destination, or dropped; `src` is the receive buffer that it came through. -/
def forward (src : Option (Nat × Bool)) (x : Transit) (s : State) : State :=
  match wayOut s x with
  | some l => emitOn l src x s
  | none => freeUnits src x.units (dropTransit x s)

end Sys2Proof.Machine
end

