-- ==== Sys2Proof/Machine/Fabric.lean ====
section
/-! DEFINITION. Mirsar links: training, width, replay, echoes and wire latency, and their registers (R286 to R297). -/
namespace Sys2Proof.Machine

/-! Lanes (R290). -/

/-- The lanes in use once both sides have adopted the narrower width. -/
def adoptLanes (m : BitVec 4) (peer : Nat) : BitVec 4 :=
  let own := laneSet m
  if laneWidth own ≤ peer then own else if 2 ≤ peer then 3 else if peer = 1 then lowestLane own else 0
/-- The narrowest width that a link accepts (LANEMIN). -/
def laneMin (s : State) (l : Nat) : Nat := 2 ^ rf s .fab (rFabLinkctrll l) 5 4

/-! State of a link. -/

/-- STATE ALIGN. -/
def linkALIGN : Nat := 2
/-- The state with STATE set. -/
def setLinkState (l st : Nat) (s : State) : State := rput s .fab (rFabLinkstatl l) 40 38 st
/-- WIDTH and LANEOK. -/
def setLanes (l : Nat) (m : BitVec 4) (s : State) : State :=
  rput (rput s .fab (rFabLinkstatl l) 43 41 (laneWidth m)) .fab (rFabLinkstatl l) 3 0 m.toNat
/-- WMEAS. -/
def wmeas (s : State) (l : Nat) : Nat := rf s .fab (rFabLinklatl l) 31 16

/-- The transfers of a link that the peer has not acknowledged whole: sent in part or in full, and waiting. -/
def Link.unacked (k : Link) : List FabHeader :=
  ((k.buf.map (·.body) ++ k.sched.map (·.body) ++ k.vc1.map (·.body) ++ k.vc0.map (·.body)).eraseDups).filterMap fun x =>
    match x with
    | .xfer h _ => some h
    | .notice _ => none

/-- A link that stops in DOWN or FAULT: its transfers fail with LINK_FAULT (R303), the receive buffers of those in transit are
free, what has not yet arrived through it does not; the entry with LINK_FAULT is logged. -/
def stopLink (l st : Nat) (code : Code) (s : State) : State :=
  let k := s.link l
  let s := { s.setLink l {} with deliveries := s.deliveries.filter fun d => d.link != l || d.arrived }
  let s := (k.vc1 ++ k.vc0).foldl (fun s p => freeUnits p.src (p.body.units - p.sent) s) s
  let s := setLanes l 0 (rput (setLinkState l st s) .fab (rFabLinkstatl l) 31 16 code.toNat)
  let s := if code = Code.linkFault then logEvent (srcLink l) .linkFault 0 s else s
  k.unacked.foldl (fun s h => sendNotice h .linkFault s) s

/-- LINK_CHANGE is reported to every RUNNING partition (R292, R294). -/
def linkChange (l : Nat) (s : State) : State :=
  (List.range 32).foldl (init := s) fun s p => reportBreakRunning p 0x0B 0xF 0xFFFF (srcLink l) s

/-- Whether any partition of the device is RUNNING. -/
def anyRunning (s : State) : Bool := (List.range 32).any fun p => partRunning s p

/-- The replay buffer is sent again in order, from the first unacknowledged unit (R291). -/
def resendAll (l : Nat) (s : State) : State := (s.link l).buf.foldl (fun s c => s.send (.fabric l c)) s
/-- The first `n` units of a replay buffer are acknowledged. -/
def ackUnits : Nat → List Chunk → List Chunk
  | _, [] => []
  | n, c :: r => if n < c.units then { c with first := c.first + n, units := c.units - n } :: r else ackUnits (n - c.units) r

/-! Commands on FAB_LINKCTRLl. -/

/-- Training of a link starts (Table FAB-1). -/
def trainLink (l : Nat) (s : State) : State := setLanes l 0 (setLinkState l linkTRAIN s)
/-- Training of every enabled link starts, as it does when bring-up step 10 starts (R370). -/
def trainEnabled (s : State) : State :=
  (List.range 48).foldl (fun s l => if (rg s .fab (rFabLinkctrll l)).bit 0 then trainLink l s else s) s

/-- A write of FAB_LINKCTRLl (R289, R370). -/
def wrFabLinkctrl (a : Acc) (l : Nat) (v : Word) (s : State) : State :=
  hostWrite a .fab (rFabLinkctrll l) dFabLinkctrll .steward v
    (fun x s => firstOf [
      (x.new.field 5 4 == 3 || x.new.field 7 6 == 3, .illegalValue),
      (x.old.bit 0 && x.new.field 7 4 != x.old.field 7 4, .wrongState),
      (linkIsUp s l && x.new.bit 3 != x.old.bit 3, .wrongState),
      ((x.v.bit 1 || x.v.bit 2) && anyRunning s, .wrongState)])
    (fun x s =>
      let s := if x.v.bit 2 then rput s .fab (rFabLinklatl l) 47 32 (wmeas s l) else s
      if !x.new.bit 0 then (if linkState s l = linkDOWN then s else stopLink l linkDOWN 0 s)
      else if (!x.old.bit 0 || x.v.bit 1) && decide (10 ≤ rf s .bup rBupState 47 44) then trainLink l s
      else s) s

/-- LINK_EN (R289). -/
def execLinkEn (a : Acc) (l : Fin 48) (v : Word) (s : State) : Host.Outcome State Fault Refusal :=
  .next (wrFabLinkctrl a l v s)
/-- RETRAIN (R289, R292). -/
def execRetrain (a : Acc) (l : Fin 48) (v : Word) (s : State) : Host.Outcome State Fault Refusal :=
  .next (wrFabLinkctrl a l (v ||| 2) s)
/-- RELOCK (R294). -/
def execRelock (a : Acc) (l : Fin 48) (v : Word) (s : State) : Host.Outcome State Fault Refusal :=
  .next (wrFabLinkctrl a l (v ||| 4) s)

/-! Echoes (R293, R294). -/

/-- An integer quotient that the spec does not say how to round: one of the two neighbours (log entry 2). -/
def roundFree (n : Int) (d : Nat) (s : State) : Int × State :=
  if n % d = 0 then (n / d, s)
  else
    let (k, s) := s.draw
    (n / d + (k % 2 : Nat), s)

/-- Device time in units of 2^-4 ns, as echoes and references count it. -/
def ownTime (s : State) : Int := (s.time.t / 12288 : Nat)

/-- Twice the one-way delay of an echo whose answer arrives now: (T4 - T1) - (T3 - T2). -/
def echoDelay2 (t : EchoTimes) : Int := t.since - (t.t3 - t.t2)
/-- Twice the responder's offset at `now`, T4: (T2 - T1) - (T4 - T3). -/
def echoOffset2 (now : Int) (t : EchoTimes) : Int := (t.t2 - (now - t.since)) - (now - t.t3)

/-- WMEAS: the mean of the delays in FCLK cycles at 1.5 GHz, rounded up. -/
def meanCycles (ds : List Int) : Nat :=
  let sum := ds.foldl (· + ·) 0
  (-((-(sum * 3)) / (64 * (ds.length : Int)))).toNat

/-- DRIFT after an echo (R294). -/
def noteDrift (l : Nat) (s : State) : State :=
  let w := wmeas s l
  let k := s.link l
  if wlock s l - 1 ≤ w ∧ w ≤ wlock s l + 1 then
    let s := s.setLink l { k with outside := 0, inside := k.inside + 1 }
    if (rg s .fab (rFabLinklatl l)).bit 0 && decide (16 ≤ k.inside + 1) then
      linkChange l (rput s .fab (rFabLinklatl l) 0 0 0) else s
  else
    let s := s.setLink l { k with inside := 0, outside := k.outside + 1 }
    if !(rg s .fab (rFabLinklatl l)).bit 0 && decide (16 ≤ k.outside + 1) then
      linkChange l (rput s .fab (rFabLinklatl l) 0 0 1) else s

/-- What the answered echo of a link measures: the delays of the last sixteen, FAB_LINKDLYl and WMEAS. -/
def measureEcho (l : Nat) (t : EchoTimes) (s : State) : State :=
  let k := s.link l
  let ds := (echoDelay2 t :: k.echoes).take 16
  let s := s.setLink l { k with echoes := ds, missed := 0 }
  let (mean, s) := roundFree (ds.foldl (· + ·) 0) (2 * ds.length) s
  let (off, s) := roundFree (echoOffset2 (ownTime s) t) 2 s
  let s := rset s .fab (rFabLinkdlyl l) (BitVec.ofNat 64 (unsignedOf 32 off * 2 ^ 32 + unsignedOf 32 mean))
  rput s .fab (rFabLinklatl l) 31 16 (min 0xFFFF (meanCycles ds))

/-- The answer to an echo request (R293, R305): T2 as it arrives, T3 as the answer passes the timestamp point, a free time
later (log entries 2 and 98), and what the device says of its own time. -/
def answerEcho (l : Nat) (s : State) : State :=
  let (k, s) := s.draw
  let w := rg s .time rTimeStat
  s.send (.echoAnswer l (ownTime s) (ownTime s + k) (w.field 15 12) (w.field 2 0 == 2) (rg s .time rTimeE0))

/-! Training (Table FAB-1, R289, R290). -/

/-- An echo of step 4; once sixteen are in, step 5 sets WLOCK to WMEAS, unless a partition of the device is RUNNING (R294),
and the link is UP. -/
def trainingEcho (l : Nat) (s : State) (t : EchoTimes) : State :=
  if linkState s l ≠ linkMEASURE then s
  else
    let s := measureEcho l t s
    if (s.link l).echoes.length < 16 then s
    else
      let s := if anyRunning s then s else rput (rput s .fab (rFabLinklatl l) 47 32 (wmeas s l)) .fab (rFabLinklatl l) 0 0 0
      pump l (resendAll l (setLanes l (s.link l).lanesWanted (setLinkState l linkUP s)))

/-- LINK_UP (Table FAB-1, R290): the lanes have trained; identities and width codes are exchanged, and echoes measure the wire
latency. Without FAB_DEVID VALID the link stays in step 3. -/
def execLinkUp (l : Fin 48) (r : LinkTraining) (s : State) : Host.Outcome State Fault Refusal :=
  let st := linkState s l
  if st ≠ linkTRAIN ∧ st ≠ linkALIGN then .next s
  else
    let m := adoptLanes r.lanes r.peerWidth
    if laneWidth m < laneMin s l ∨ m = 0 then .next (stopLink l linkFAULT .linkFault s)
    else if !(rg s .fab rFabDevid).bit 14 then .next (setLinkState l linkALIGN s)
    else
      let s := s.send (.identity l (devId s) (laneWidth (laneSet r.lanes)))
      let s := rput (rput s .fab (rFabLinkstatl l) 63 50 r.peerDev.toNat) .fab (rFabLinkstatl l) 49 44 r.peerLink.val
      if r.peerDev.toNat = devId s then .next (stopLink l linkFAULT .illegalValue s)
      else
        let k := s.link l
        let s := setLinkState l linkMEASURE (s.setLink l { k with
          lanesWanted := m, echoes := [], outside := 0, inside := 0, missed := 0, replay := 0, badRow := 0
          credit0 := 512, credit1 := 512, owed0 := 0, owed1 := 0 })
        .next (r.echoes.foldl (fun s t => trainingEcho l (s.send (.echoRequest l)) t) s)

/-! Frames, replay and lanes in service. -/

/-- A frame that fails: a negative acknowledgement, and after sixteen in a row the link goes DOWN (R291). -/
def badFrame (l : Nat) (s : State) : State :=
  let k := s.link l
  if k.badRow + 1 = 16 then stopLink l linkDOWN .linkFault s
  else (s.setLink l { k with badRow := k.badRow + 1 }).send (.frame l false 0 0)

/-- What a link does with a control unit (R288): units acknowledged, credits, an echo to answer; the frame is acknowledged in
its turn, with the credits owed. A peer that has gone to a narrower width makes the link realign (R290, R292). -/
def takeControl (l : Nat) (c : Control) (s : State) : State :=
  let k := s.link l
  let s := s.setLink l { k with
    badRow := 0, replay := 0, buf := ackUnits c.acked k.buf
    credit0 := min 512 (k.credit0 + c.credit0), credit1 := min 512 (k.credit1 + c.credit1), owed0 := 0, owed1 := 0 }
  let s := s.send (.frame l true k.owed0 k.owed1)
  let s := if c.echo then answerEcho l s else s
  if linkIsUp s l && decide (0 < c.width ∧ c.width < linkWidth s l) then
    setLinkState l linkREALIGN (s.setLink l { s.link l with lanesWanted := BitVec.ofNat 4 (rf s .fab (rFabLinkstatl l) 3 0) })
  else pump l s

/-- FRAME_RECEIVE (R287, R288, R291). -/
def execFrameReceive (l : Fin 48) (f : Frame) (s : State) : Host.Outcome State Fault Refusal :=
  if !linkIsUp s l && linkState s l != linkMEASURE then .next s
  else
    match f with
    | .good n c => .next (takeControl l c (rsat s .fab (rFabLinkerrl l) 31 0 n))
    | .uncorrectable => .next (badFrame l (rsat s .fab (rFabLinkerrl l) 47 32 1))
    | .crcError => .next (badFrame l s)

/-- REPLAY (R291): a negative acknowledgement has arrived. -/
def execReplay (l : Fin 48) (s : State) : Host.Outcome State Fault Refusal :=
  if !linkIsUp s l then .next s
  else
    let s := rsat s .fab (rFabLinkerrl l) 63 48 1
    let k := s.link l
    if k.replay + 1 = 16 then .next (stopLink l linkDOWN .linkFault s)
    else .next (resendAll l (s.setLink l { k with replay := k.replay + 1 }))

/-- LANE_FAIL (R292): the link stops sending and realigns on the lanes that are left, whose width it tells its peer (R290). -/
def execLaneFail (l : Fin 48) (lanes : BitVec 4) (s : State) : Host.Outcome State Fault Refusal :=
  let used := BitVec.ofNat 4 (rf s .fab (rFabLinkstatl l) 3 0)
  if !linkIsUp s l || used &&& lanes = 0 then .next s
  else
    let left := used &&& ~~~lanes
    .next (setLinkState l linkREALIGN ((s.setLink l { s.link l with lanesWanted := left }).send (.width l (laneWidth (laneSet left)))))

/-- LINK_REALIGNED (R292): UP at the narrower width, or FAULT below LANEMIN (R290). -/
def execLinkRealigned (l : Fin 48) (peerWidth : Nat) (s : State) : Host.Outcome State Fault Refusal :=
  if linkState s l ≠ linkREALIGN then .next s
  else
    let m := adoptLanes (s.link l).lanesWanted peerWidth
    if laneWidth m < laneMin s l ∨ m = 0 then .next (stopLink l linkFAULT .linkFault s)
    else
      let s := (setLanes l m (setLinkState l linkUP s)).send (.width l (laneWidth m))
      .next (linkChange l (logEvent (srcLink l) .linkDegraded 0 (pump l (resendAll l s))))

/-! The other registers of the FAB block. -/

/-- A write of FAB_DEVID. -/
def wrFabDevid (a : Acc) (v : Word) (s : State) : State :=
  hostWrite a .fab rFabDevid dFabDevid .steward v
    (fun x s => firstOf [(x.new != x.old && (List.range 48).any fun l => linkState s l != linkDOWN, .wrongState)]) noAct s

/-- A write of FAB_ERRCODE. -/
def wrFabErrcode (a : Acc) (v : Word) (s : State) : State :=
  hostWrite a .fab rFabErrcode dFabErrcode .steward v noCheck (clearErr .fab rFabErrcode) s

/-- A write of FAB_FAILLAST: writing 1 to VALID clears VALID and CODE. -/
def wrFabFaillast (a : Acc) (v : Word) (s : State) : State :=
  hostWrite a .fab rFabFaillast dFabFaillast .steward v noCheck
    (fun x s => if x.v.bit 16 then rput s .fab rFabFaillast 16 0 0 else s) s

/-- A write of FAB_FWDe. -/
def wrFabFwd (a : Acc) (e : Nat) (v : Word) (s : State) : State :=
  hostWrite a .fab (rFabFwde e) dFabFwde .steward v
    (fun x _ => firstOf [(decide (47 < x.new.field 5 0 ∨ 47 < x.new.field 11 6 ∨ 47 < x.new.field 17 12), .outOfRange)])
    noAct s

end Sys2Proof.Machine
end

