-- ==== Sys2Proof/Machine/Float.lean ====
section
/-! DEFINITION. Number formats (Table MX-4), exact values, rounding to nearest with ties to even (R101, Table
MX-5), and the special functions (R102). -/
namespace Sys2Proof.Machine

/-- A value: a NaN, an infinity, or (-1)^neg × m × 2^e exactly. -/
inductive FpNum where
  | nan
  | inf (neg : Bool)
  | fin (neg : Bool) (m : Nat) (e : Int)
  deriving DecidableEq, Repr

/-- A floating format (Table MX-4): bits, fraction bits, exponent bias, the pattern of the largest finite value,
the pattern of infinity where it has one, and its canonical NaN where it has one. -/
structure FFmt where
  bits : Nat
  mbits : Nat
  bias : Nat
  maxFin : Nat
  infPat : Option Nat
  nanPat : Option Nat
  deriving DecidableEq, Repr

/-- FP32. -/
def fp32 : FFmt := ⟨32, 23, 127, 0x7F7FFFFF, some 0x7F800000, some 0x7FC00000⟩
/-- BF16. -/
def bf16 : FFmt := ⟨16, 7, 127, 0x7F7F, some 0x7F80, some 0x7FC0⟩
/-- FP16. -/
def fp16 : FFmt := ⟨16, 10, 15, 0x7BFF, some 0x7C00, some 0x7E00⟩
/-- FP8 E5M2. -/
def e5m2 : FFmt := ⟨8, 2, 15, 0x7B, some 0x7C, some 0x7F⟩
/-- FP8 E4M3: one NaN magnitude, no infinity. -/
def e4m3 : FFmt := ⟨8, 3, 7, 0x7E, none, some 0x7F⟩
/-- FP6 E2M3. -/
def e2m3 : FFmt := ⟨6, 3, 1, 0x1F, none, none⟩
/-- FP6 E3M2. -/
def e3m2 : FFmt := ⟨6, 2, 3, 0x1F, none, none⟩
/-- FP4 E2M1. -/
def e2m1 : FFmt := ⟨4, 1, 1, 0x7, none, none⟩

/-- The value of a pattern. -/
def decodeF (f : FFmt) (x : Nat) : FpNum :=
  let neg := x.testBit (f.bits - 1)
  let a := x % 2 ^ (f.bits - 1)
  if f.maxFin < a then (if f.infPat = some a then .inf neg else .nan)
  else
    let ex := a >>> f.mbits
    let fr := a % 2 ^ f.mbits
    if ex = 0 then .fin neg fr (1 - (f.bias : Int) - f.mbits)
    else .fin neg (2 ^ f.mbits + fr) ((ex : Int) - f.bias - f.mbits)

/-- `m × 2^(-k)` rounded to an integer, to nearest, ties to even. -/
def rneShift (m k : Nat) : Nat :=
  let q := m >>> k
  let r := m % 2 ^ k
  if 2 ^ k < 2 * r ∨ (2 ^ k = 2 * r ∧ q % 2 = 1) then q + 1 else q

/-- The pattern with its sign bit. -/
def withSign (f : FFmt) (neg : Bool) (p : Nat) : Nat := if neg then p + 2 ^ (f.bits - 1) else p

/-- The pattern of an overflow or an infinity (Table MX-5): the largest finite value where `sat`, else infinity,
else NaN. -/
def overflowF (f : FFmt) (sat neg : Bool) : Nat :=
  if sat then withSign f neg f.maxFin
  else
    match f.infPat with
    | some p => withSign f neg p
    | none => match f.nanPat with
      | some n => n
      | none => withSign f neg f.maxFin

/-- A value rounded once to a format, to nearest, ties to even; subnormal results kept; every NaN canonical. -/
def roundF (f : FFmt) (sat : Bool) : FpNum → Nat
  | .nan => match f.nanPat with
    | some n => n
    | none => 0
  | .inf neg => overflowF f sat neg
  | .fin neg m e =>
    if m = 0 then withSign f neg 0
    else
      let top : Int := e + Nat.log2 m
      let emin : Int := 1 - f.bias
      if (f.bias : Int) + 2 < top then overflowF f sat neg
      else if top < emin - f.mbits - 1 then withSign f neg 0
      else
        let q : Int := max top emin - f.mbits
        let sig := if q ≤ e then m <<< (e - q).toNat else rneShift m (q - e).toNat
        let p := (max top emin - emin).toNat <<< f.mbits
        if f.maxFin < p + sig then overflowF f sat neg else withSign f neg (p + sig)

/-- A value rounded to `n` significant bits with no bound on the exponent (the check format, R63). -/
def roundSig (n : Nat) : FpNum → FpNum
  | .fin neg m e =>
    let w := Nat.log2 m + 1
    if w ≤ n then .fin neg m e else .fin neg (rneShift m (w - n)) (e + (w - n : Nat))
  | x => x

/-- The signed mantissa of a finite value at exponent `e'` not above its own. -/
def scaledInt (neg : Bool) (m : Nat) (e e' : Int) : Int :=
  let a : Int := (m <<< (e - e').toNat : Nat)
  if neg then -a else a

/-- The exact sum (R52): opposite infinities give NaN; an exact zero is -0 only from two negative zeros. -/
def addN : FpNum → FpNum → FpNum
  | .nan, _ | _, .nan => .nan
  | .inf a, .inf b => if a = b then .inf a else .nan
  | .inf a, .fin _ _ _ => .inf a
  | .fin _ _ _, .inf b => .inf b
  | .fin n1 m1 e1, .fin n2 m2 e2 =>
    let e := min e1 e2
    let s := scaledInt n1 m1 e1 e + scaledInt n2 m2 e2 e
    if s = 0 then .fin (n1 && n2) 0 e else .fin (decide (s < 0)) s.natAbs e

/-- The exact product (R52): infinity times zero gives NaN. -/
def mulN : FpNum → FpNum → FpNum
  | .nan, _ | _, .nan => .nan
  | .inf a, .inf b => .inf (a != b)
  | .inf a, .fin n m _ | .fin n m _, .inf a => if m = 0 then .nan else .inf (a != n)
  | .fin n1 m1 e1, .fin n2 m2 e2 => .fin (n1 != n2) (m1 * m2) (e1 + e2)

/-- The value negated. -/
def negN : FpNum → FpNum
  | .nan => .nan
  | .inf a => .inf !a
  | .fin n m e => .fin (!n) m e

/-- The magnitude of a value. -/
def absN : FpNum → FpNum
  | .nan => .nan
  | .inf _ => .inf false
  | .fin _ m e => .fin false m e

/-- An integer as a value. -/
def intN (i : Int) : FpNum := .fin (decide (i < 0)) i.natAbs 0

/-- The order of two values that are no NaN: whether the first is below the second; zeros are equal. -/
def ltN : FpNum → FpNum → Bool
  | .nan, _ | _, .nan => false
  | .inf a, .inf b => a && !b
  | .inf a, .fin _ _ _ => a
  | .fin _ _ _, .inf b => !b
  | .fin n1 m1 e1, .fin n2 m2 e2 =>
    let e := min e1 e2
    decide (scaledInt n1 m1 e1 e < scaledInt n2 m2 e2 e)

/-- Equality of two values; a NaN equals nothing; zeros are equal. -/
def eqN : FpNum → FpNum → Bool
  | .nan, _ | _, .nan => false
  | a, b => !ltN a b && !ltN b a

/-- Whether a value is a zero. -/
def isZeroN : FpNum → Bool
  | .fin _ m _ => m == 0
  | _ => false

/-- The maximum of R103: NaN with a NaN; of +0 and -0, +0. -/
def maxN (a b : FpNum) : FpNum :=
  if a = .nan ∨ b = .nan then .nan
  else if isZeroN a && isZeroN b then
    (match a, b with | .fin true _ _, y => y | x, _ => x)
  else if ltN a b then b else a

/-- The minimum of R103: NaN with a NaN; of +0 and -0, -0. -/
def minN (a b : FpNum) : FpNum :=
  if a = .nan ∨ b = .nan then .nan
  else if isZeroN a && isZeroN b then
    (match a, b with | .fin false _ _, y => y | x, _ => x)
  else if ltN b a then b else a

/-- A value rounded to an integer, to nearest, ties to even, saturated to `w`-bit two's complement; NaN gives 0
(R126). -/
def toIntSat (w : Nat) : FpNum → Int
  | .nan => 0
  | .inf neg => if neg then -(2 ^ (w - 1) : Nat) else (2 ^ (w - 1) : Nat) - 1
  | .fin neg m e =>
    let lo : Int := -(2 ^ (w - 1) : Nat)
    let hi : Int := (2 ^ (w - 1) : Nat) - 1
    if m = 0 then 0
    else if (w : Int) < e + Nat.log2 m then (if neg then lo else hi)
    else
      let a : Int := (if 0 ≤ e then m <<< e.toNat else if (Nat.log2 m : Int) + 1 < -e then 0 else rneShift m (-e).toNat : Nat)
      max lo (min hi (if neg then -a else a))

/-! Special functions (R102): the allowed results are those within 2 ulp of the exact value; which of them a
function gives is the free choice `Config.specialChoice` (log entry 2). -/

/-- One ulp of FP32 at a value that rounds down to the pattern `p`. -/
def ulpAt (p : Nat) : FpNum := .fin false 1 (((max (p >>> 23) 1 : Nat) : Int) - 150)

/-- The free choice among the patterns about `p` that `ok` allows. -/
def pick (fn p : Nat) (x : W32) (ok : Nat → Bool) : Nat :=
  let near := ((List.range 11).map fun i => p + i - 5).filter ok
  near.getD (Config.specialChoice fn x % near.length) p

/-- Whether pattern `q` lies within 2 ulp of 1 / x for a positive x; `p` is 1 / x rounded down. -/
def rcpClose (x : FpNum) (p q : Nat) : Bool :=
  !ltN (mulN x (mulN (.fin false 2 0) (ulpAt p))) (absN (addN (mulN (decodeF fp32 q) x) (.fin true 1 0)))

/-- Whether pattern `q` lies within 2 ulp of 1 / √x for a positive x; `p` is 1 / √x rounded down. -/
def rsqrtClose (x : FpNum) (p q : Nat) : Bool :=
  let u := mulN (.fin false 2 0) (ulpAt p)
  let hi := addN (decodeF fp32 q) u
  let lo := addN (decodeF fp32 q) (negN u)
  let one : FpNum := .fin false 1 0
  !ltN (mulN (mulN hi hi) x) one && (ltN lo (.fin false 0 0) || !ltN one (mulN (mulN lo lo) x))

/-- Whether pattern `q` lies within 2 ulp of every value from `lo` to `hi`; `p` is `lo` rounded down. -/
def spanClose (lo hi : FpNum) (p q : Nat) : Bool :=
  let u := mulN (.fin false 2 0) (ulpAt p)
  !ltN (addN lo u) (decodeF fp32 q) && !ltN (decodeF fp32 q) (addN hi (negN u))

/-- The pattern of the largest FP32 value not above num / den × 2^k. -/
def floorRatio (num den : Nat) (k : Int) : Nat :=
  let t0 : Int := (Nat.log2 num : Int) - Nat.log2 den
  let below := if 0 ≤ t0 then decide (num < den <<< t0.toNat) else decide (num <<< (-t0).toNat < den)
  let top : Int := (if below then t0 - 1 else t0) + k
  let q : Int := max top (-126) - 23
  let sh : Int := k - q
  let sig := if 0 ≤ sh then (num <<< sh.toNat) / den else num / (den <<< (-sh).toNat)
  ((max top (-126) + 126).toNat <<< 23) + sig

/-- The largest `n`-bit number whose square is at most `a`. -/
def sqrtBits : Nat → Nat → Nat → Nat
  | 0, _, r => r
  | n + 1, a, r => if (r + 2 ^ n) * (r + 2 ^ n) ≤ a then sqrtBits n a (r + 2 ^ n) else sqrtBits n a r

/-- The reciprocal (R102). A finite result that no FP32 pattern holds is not stated: a free value. -/
def rcpF (x : W32) : Nat :=
  match decodeF fp32 x.toNat with
  | .nan => 0x7FC00000
  | .inf neg => withSign fp32 neg 0
  | .fin neg m e =>
    if m = 0 then withSign fp32 neg 0x7F800000
    else
      let p := floorRatio 1 m (-e)
      if 0x7F800000 ≤ p then Config.specialChoice 1 x % 2 ^ 32
      else withSign fp32 neg (pick 1 p x (rcpClose (.fin false m e) p))

/-- The reciprocal square root (R102). -/
def rsqrtF (x : W32) : Nat :=
  match decodeF fp32 x.toNat with
  | .nan => 0x7FC00000
  | .inf neg => if neg then 0x7FC00000 else 0
  | .fin neg m e =>
    if m = 0 then withSign fp32 neg 0x7F800000
    else if neg then 0x7FC00000
    else
      -- m 2^e = m' 4^h with m' < 4 × 2^62: the root of 2^110 / m' has its 24 leading bits exact
      let h : Int := e / 2
      let m' := if e % 2 = 0 then m else 2 * m
      let r := sqrtBits 56 (2 ^ 110 / m') 0
      let p := floorRatio r 1 (-55 - h)
      pick 2 p x (rsqrtClose (.fin false m e) p)

/-- floor(2^64 × 2^(2^-i)) for i = 1 to 50. -/
def exp2Consts : List Nat :=
  [26087635650665564424, 21936999301089678046, 20116317054877281741, 19263451207323153961, 18850675170876015534, 18647615946650685158, 18546908069882975960, 18496758270674070881, 18471734244850835105, 18459234930309000272] ++
  [18452988445124272033, 18449865995240371898, 18448304968436414829, 18447524504564044945, 18447134285009651015, 18446939178327825412, 18446841625760745902, 18446792849670663276, 18446768461673986097, 18446756267687738521] ++
  [18446750170697637485, 18446747122203342655, 18446745597956384161, 18446744835832952145, 18446744454771247944, 18446744264240398796, 18446744168974974960, 18446744121342263226, 18446744097525907405, 18446744085617729507] ++
  [18446744079663640560, 18446744076686596088, 18446744075198073851, 18446744074453812733, 18446744074081682174, 18446744073895616895, 18446744073802584255, 18446744073756067935, 18446744073732809775, 18446744073721180695] ++
  [18446744073715366155, 18446744073712458885, 18446744073711005250, 18446744073710278433, 18446744073709915024, 18446744073709733320, 18446744073709642468, 18446744073709597042, 18446744073709574329, 18446744073709562972]

/-- A lower approximation, with 64 fraction bits, of 2^(f / 2^50) for f below 2^50: the product of the factors of
its bits, each product truncated. -/
def exp2Frac (f : Nat) : Nat :=
  (exp2Consts.zipIdx).foldl (init := 2 ^ 64) fun a (c, i) => if f.testBit (49 - i) then a * c / 2 ^ 64 else a

/-- exp2 (R102). -/
def exp2F (x : W32) : Nat :=
  match decodeF fp32 x.toNat with
  | .nan => 0x7FC00000
  | .inf neg => if neg then 0 else 0x7F800000
  | .fin neg m e =>
    let one : FpNum := .fin false 1 0
    if m = 0 then pick 0 0x3F800000 x (spanClose one one 0x3F800000)
    else if e + Nat.log2 m < -26 then
      if neg then pick 0 0x3F7FFFFF x (spanClose (.fin false (2 ^ 26 - 1) (-26)) one 0x3F7FFFFF)
      else pick 0 0x3F800000 x (spanClose one (.fin false (2 ^ 26 + 1) (-26)) 0x3F800000)
    else if 7 < e + Nat.log2 m then
      if neg then pick 0 0 x (spanClose (.fin false 0 0) (.fin false 1 (-149)) 0) else 0x7F800000
    else
      let fx : Int := (if 0 ≤ e + 50 then m <<< (e + 50).toNat else m >>> (-(e + 50)).toNat : Nat)
      let fx := if neg then -fx else fx
      let k : Int := fx / 2 ^ 50
      if 128 ≤ k then 0x7F800000
      else
        let a := exp2Frac (fx % 2 ^ 50).toNat
        let p := floorRatio a 1 (k - 64)
        let err := if fx % 2 ^ 50 = 0 then 0 else 256
        pick 0 p x (spanClose (.fin false a (k - 64)) (.fin false (a + err) (k - 64)) p)

end Sys2Proof.Machine
end

