-- ==== Sys2Proof/Machine/Retire.lean ====
section
/-! DEFINITION. Detection of a tile's loss (R371, R373) and of pauses (R184). -/
namespace Sys2Proof.Machine

/-- A cluster has a cause to pause (R184): its partition pauses it at the next epoch mark while its traverse runs. -/
def wantPause (r : Nat) (s : State) : State :=
  match partOfCluster s r with
  | some p =>
    s.updPart p fun x => if x.pauseCause.contains r then x else { x with pauseCause := r :: x.pauseCause }
  | none => s

/-- A mapped tile is retired (R371): the partition's fault vector, a TILE_LOST entry, the step withheld (R373),
and the cluster's repair, for which it pauses. A tile that carries no logical tile is only marked. -/
def retireTile (h : Nat) (s : State) : State :=
  if s.bup.retiredInService.contains h then s
  else
    let s := { s with bup := { s.bup with retiredInService := s.bup.retiredInService ++ [h] } }
    match logOf s h with
    | none => s
    | some t =>
      let r := clusterOfPhys h
      let p := partOfCluster s r
      let step := match p with | some p => curStep s p | none => 0
      let s := raiseFaultOf p
        (logEvent (srcTile h) .tileLost (t + 2 ^ 16 * r + 2 ^ 24 * (h % 17) + 2 ^ 32 * step) s)
      match p with
      | some p =>
        let s := s.updPart p fun x => { x with repairs := x.repairs ++ [(r, h)] }
        if traverseRuns s p then wantPause r (withhold p .tileLost s) else s
      | none => s

/-- A residue fault of spur core `c` of a tile: the second within 24 h retires the tile (R385). -/
def noteResidue (h c : Nat) (s : State) : State :=
  let now := s.nowNs
  let again := (s.tile h).residues.any fun x => x.1 == c && decide (now - x.2 ≤ 86400000000000)
  let s := s.updTile h fun t => { t with residues := (c, now) :: t.residues }
  if again then retireTile h s else s

end Sys2Proof.Machine
end

