-- ==== Sys2Proof/Machine/Operands.lean ====
section
/-! DEFINITION. The units that issue Alori instructions: registers, program counter, halting, waiting, and the
order in which an instruction's checks report (R75 to R86, R116 to R118, R159, R246). -/
namespace Sys2Proof.Machine

/-- A context of a spur core, not a grotto core. -/
def isSpur : Agent → Bool
  | .spur _ _ => true
  | .grotto _ => false

/-- Bits of a g register (R76, R159). -/
def gWidth (u : Agent) : Nat := if isSpur u then 64 else 32
/-- Bytes of a v or w register. -/
def vBytes (u : Agent) : Nat := if isSpur u then 64 else 128

/-- The physical tile behind a logical one; 0 where none carries it. -/
def tileAt (s : State) (t : Nat) : Nat := (physOf s t).getD 0
/-- Context `n` of logical tile `t`. -/
def ctxAt (s : State) (t n : Nat) : Ctx := (s.tile (tileAt s t)).ctxOf n
/-- The state with a context replaced. -/
def setCtxAt (s : State) (t n : Nat) (c : Ctx) : State := s.updTile (tileAt s t) fun x => x.setCtx n c

/-- Offset of the next instruction. -/
def pcOf (u : Agent) (s : State) : Nat :=
  match u with
  | .spur t n => (ctxAt s t n).pc
  | .grotto k => (s.grotto k).pc

/-- The state with a unit's program counter set. -/
def setPc (u : Agent) (pc : Nat) (s : State) : State :=
  match u with
  | .spur t n => setCtxAt s t n { ctxAt s t n with pc := pc }
  | .grotto k => s.setGrotto k { s.grotto k with pc := pc }

/-- Scalar register `r`: g0 reads as zero (R76). -/
def getG (u : Agent) (s : State) (r : BitVec 5) : Nat :=
  if r = 0 then 0
  else
    match u with
    | .spur t n => (SMap.get 0 (ctxAt s t n).g r.toNat).toNat
    | .grotto k => (SMap.get 0 (s.grotto k).g r.toNat).toNat

/-- The state with scalar register `r` written; a write to g0 is discarded (R76). -/
def setG (u : Agent) (r : BitVec 5) (v : Nat) (s : State) : State :=
  if r = 0 then s
  else
    match u with
    | .spur t n => setCtxAt s t n { ctxAt s t n with g := SMap.put r.toNat (BitVec.ofNat 64 v) (ctxAt s t n).g }
    | .grotto k => s.setGrotto k { s.grotto k with g := SMap.put r.toNat (BitVec.ofNat 32 v) (s.grotto k).g }

/-- Vector register `r` as a number. -/
def getV (u : Agent) (s : State) (r : BitVec 5) : Nat :=
  match u with
  | .spur t n => (SMap.get 0 (ctxAt s t n).v r.toNat).toNat
  | .grotto k => (SMap.get 0 (s.grotto k).w r.toNat).toNat

/-- The state with vector register `r` written. -/
def setV (u : Agent) (r : BitVec 5) (v : Nat) (s : State) : State :=
  let v := v % 2 ^ (8 * vBytes u)
  match u with
  | .spur t n => setCtxAt s t n { ctxAt s t n with v := SMap.put r.toNat (BitVec.ofNat 1024 v) (ctxAt s t n).v }
  | .grotto k => s.setGrotto k { s.grotto k with w := SMap.put r.toNat (BitVec.ofNat 1024 v) (s.grotto k).w }

/-- Predicate register `p`: p0 reads as all ones (R76); a grotto core has only p0's meaning (R159). -/
def getP (u : Agent) (s : State) (p : Nat) : Word :=
  if p = 0 then Word.mask 63 0
  else
    match u with
    | .spur t n => SMap.get 0 (ctxAt s t n).p p
    | .grotto _ => Word.mask 63 0

/-- The state with predicate register `p` written; a write to p0 is discarded. -/
def setP (u : Agent) (p : Nat) (v : Word) (s : State) : State :=
  if p = 0 then s
  else
    match u with
    | .spur t n => setCtxAt s t n { ctxAt s t n with p := SMap.put p v (ctxAt s t n).p }
    | .grotto _ => s

/-- The partition whose step a unit runs in. -/
def unitPart (s : State) : Agent → Option Nat
  | .spur t _ => partOfTile s t
  | .grotto k => partOfGrotto s k

/-- AGENT and UNIT of a unit as the counter plan names them (Table SPR-11). -/
def planAgent : Agent → Nat
  | .spur t _ => t
  | .grotto k => k
/-- UNIT of the counter plan. -/
def planUnit : Agent → Nat
  | .spur _ n => n
  | .grotto _ => 0xB

/-- The key under which the debug port holds a spur core halted (R445). -/
def debugKey (t n : Nat) : Nat := 1 + 2 * t + n / 4
/-- Whether the debug port holds a unit halted with no step granted. -/
def debugStopped (s : State) (k : Nat) : Bool :=
  s.sec.debugHeld.has k && SMap.get 0 s.sec.debugHeld k == 0
/-- The state `t` after a unit that the debug port held in state `s` has used one granted step. -/
def spendStep (k : Nat) (s t : State) : State :=
  if s.sec.debugHeld.has k then
    { t with sec := { t.sec with debugHeld := SMap.put k (SMap.get 0 s.sec.debugHeld k - 1) t.sec.debugHeld } }
  else t

/-- The code range of a unit that may issue its next instruction: a READY context of an active tile, whose core the debug
port does not hold, or a READY grotto core that has no refresh pause (R251) and no queued unit (R254) to take first; `none`
where no instruction of the unit can issue (log entry 10). -/
def canIssue (s : State) (u : Agent) : Option Img :=
  match u with
  | .spur t n =>
    match activeTile s t with
    | some h =>
      if ((s.tile h).ctxOf n).st = .ready ∧ debugStopped s (debugKey t n) = false then (s.tile h).img else none
    | none => none
  | .grotto k =>
    let g := s.grotto k
    if g.st = .ready ∧ g.owed < 9 ∧ g.queue = [] ∧ s.therm.stopped = false then g.img else none

/-- The commit group that a context has open (R134). -/
def openGroup (s : State) (t n : Nat) : Option Group :=
  match (s.tile (tileAt s t)).group with
  | some g => if g.ctx = n ∧ g.phase = .filling then some g else none
  | none => none

/-- A context enters HALTED (R84, R86): its open group is discarded with CG_ABORT_FAULT (R143), the tile logs the
halt, and the partition's fault vector follows HALT_IE. -/
def haltCtx (t n : Nat) (c : Code) (s : State) : State :=
  let h := tileAt s t
  let pc := (ctxAt s t n).pc
  let s := if (openGroup s t n).isSome then
      setCtxAt (s.updTile h fun x => { x with group := none }) t n { ctxAt s t n with cgCode := .cgAbortFault }
    else s
  let s := setCtxAt s t n { ctxAt s t n with st := .halted, code := c, wait := .none }
  let s := logEvent (srcTile h) c (t + 2 ^ 12 * n + 2 ^ 32 * pc) s
  if (rg s (.tile h) rTileCtxCtrl).bit n then raiseFaultOf (partOfTile s t) s else s

/-- A grotto core enters HALTED (R246). -/
def haltGrotto (k : Nat) (c : Code) (s : State) : State :=
  let g := s.grotto k
  let s := s.setGrotto k { g with st := .halted, code := c, wait := .none }
  let s := logEvent (srcGrotto k) c (k + 2 ^ 12 * 0xB + 2 ^ 32 * g.pc) s
  if (rg s (.grt (k / 128)) (rGrtCctrlk (k % 128))).bit 1 then raiseFaultOf (partOfGrotto s k) s else s

/-- A unit halts with a code. -/
def haltUnit (u : Agent) (c : Code) (s : State) : State :=
  match u with
  | .spur t n => haltCtx t n c s
  | .grotto k => haltGrotto k c s

/-- What an instruction does: it halts its unit (in a state that carries reports of the access, or as it was); it takes effect and continues at PC + 4; it jumps; it ends the
program; its unit enters WAIT, with PC at the next instruction or kept. -/
inductive Issue where
  | halt (c : Code)
  | haltIn (c : Code) (s : State)
  | go (s : State)
  | jump (target : Int) (s : State)
  | done (s : State)
  | wait (w : Waiting) (s : State)
  | hold (w : Waiting) (s : State)
  | skip (s : State)

/-- A grotto core leaves READY on cycle `c`: operations owed to its bank group begin, unless one runs already (R250). -/
def Grotto.rest (g : Grotto) (c : Nat) : Grotto :=
  if g.running = 0 ∧ 0 < g.owed then { g with running := 1, opFrom := c } else g

/-- The unit in WAIT. -/
def enterWait (u : Agent) (w : Waiting) (s : State) : State :=
  match u with
  | .spur t n => setCtxAt s t n { ctxAt s t n with st := .wait, wait := w }
  | .grotto k => s.setGrotto k { (s.grotto k).rest s.cyc with st := .wait, wait := w }

/-- Whether a physical fault makes the residue of a context's next result wrong (R385, log entry 4). -/
def residueBad (s : State) : Agent → Bool
  | .spur t n => s.flt.contains (.residueCtx t.val n.val)
  | .grotto _ => false

/-- The halt of R385, which uses the fault up. -/
def residueHalt (u : Agent) (s : State) : State :=
  match u with
  | .spur t n =>
    let s := haltUnit u .residueFault { s with flt := s.flt.erase (.residueCtx t.val n.val) }
    noteResidue (tileAt s t) (n / 4) s
  | .grotto _ => haltUnit u .residueFault s

/-- A register field that names no g register of a grotto core (R159). -/
def badG (u : Agent) (r : BitVec 5) : Bool := !isSpur u && decide (15 < r.toNat)
/-- A register field that names no w register of a grotto core (R159). -/
def badV (u : Agent) (r : BitVec 5) : Bool := !isSpur u && decide (7 < r.toNat)

/-- The integer that a value of the unit's width gives in two's complement. -/
def sgn (u : Agent) (n : Nat) : Int := signedOf (gWidth u) n
/-- The pattern of an integer at the unit's width. -/
def pat (u : Agent) (i : Int) : Nat := unsignedOf (gWidth u) i

end Sys2Proof.Machine
end

