-- ==== Sys2Proof/Machine/Issue.lean ====
section
/-! DEFINITION. Issue: what a core fetches, which of its contexts issues next and when, and what one instruction does with
its checks (R77, R78, R82, R83, R88, R116 to R118, R162, R248, Tables SPR-2 and ALR-24). The model's own choices in it: log
entries 94 and 96. -/
namespace Sys2Proof.Machine

/-! Fetch (R116). -/

/-- The memory that holds the code of a unit's image. -/
def codeMem (u : Agent) (s : State) : MemId :=
  match u with
  | .spur t _ => .store (tileAt s t)
  | .grotto k => .ls k

/-- The word at a unit's PC, little-endian, as its memory delivers it; `none` where its codeword cannot be corrected. -/
def fetch (u : Agent) (s : State) : Option (BitVec 32) × State :=
  match memRead (codeMem u s) (pcOf u s) 4 (unitPart s u) s with
  | (.data bs, s') => (some (BitVec.ofNat 32 (natOfBytes bs)), s')
  | (.uncorrected _, s') => (none, s')

/-- The instruction at a unit's PC, where its word defines one. -/
def nextInstr (u : Agent) (s : State) : Option Instr := (fetch u s).1.bind (decodeAlori u)

/-- The code with which a word that defines no instruction halts: VCVT and VDOT have no FN field, which must then be 0 (R117);
any other OP or FN that Table ALR-2 does not list is ILLEGAL_OPCODE. -/
def noInstrCode (w : BitVec 32) : Code :=
  if fieldOf w 31 26 = 0x22 ∨ fieldOf w 31 26 = 0x25 then .reservedBitSet else .illegalOpcode

/-! What an instruction reads and writes, and how soon its result can be used (Tables SPR-2 and ALR-24). -/

/-- Whether a lane type is floating. -/
def laneFloat (t : BitVec 3) : Bool := decide (3 ≤ t.toNat)

/-- Classes of result latency. -/
inductive Pace where
  | one | mul | load (sp : Nat) | vload (sp : Nat) | count | vecInt | vecFloat | reduce | special
  deriving DecidableEq, Repr

/-- The registers that an instruction reads, the one that it writes, as the keys of Board.ready, and its latency class. -/
structure Uses where
  reads : List Nat := []
  writes : Option Nat := none
  pace : Pace := .one
  deriving DecidableEq, Repr

/-- The key of v register `r`. -/
def vKey (r : BitVec 5) : Nat := 32 + r.toNat
/-- The key of p register `p`. -/
def pKey (p : Nat) : Nat := 64 + p
/-- A lane-by-lane instruction: with a predicate it also reads the lanes of vd that it keeps (R124). -/
def vecUses (f : FmtV) (reads : List Nat) (pace : Pace) : Uses :=
  ⟨reads ++ (if f.pm = 0 then [] else [pKey f.pm.toNat, vKey f.vd]), some (vKey f.vd), pace⟩
/-- The class of lane arithmetic on a lane type. -/
def lanePace (t : BitVec 3) : Pace := if laneFloat t then .vecFloat else .vecInt

/-- What the scoreboard holds of an instruction. -/
def usesOf : Instr → Uses
  | .add _ f | .sub _ f | .and _ f | .or _ f | .xor _ f | .sll _ f | .srl _ f | .sra _ f | .min _ f | .minu _ f
  | .max _ f | .maxu _ f | .cmpeq _ f | .cmplt _ f | .cmpltu _ f => ⟨[f.ra.toNat, f.rb.toNat], some f.rd.toNat, .one⟩
  | .mul _ f | .mulh _ f | .mulhu _ f => ⟨[f.ra.toNat, f.rb.toNat], some f.rd.toNat, .mul⟩
  | .clz _ f | .popc _ f => ⟨[f.ra.toNat], some f.rd.toNat, .one⟩
  | .addi _ f | .andi _ f | .ori _ f | .xori _ f | .shi _ f | .jalr _ f => ⟨[f.ra.toNat], some f.rd.toNat, .one⟩
  | .movz _ f => ⟨[], some f.rd.toNat, .one⟩
  | .movk _ f => ⟨[f.rd.toNat], some f.rd.toNat, .one⟩
  | .beq _ f | .bne _ f | .blt _ f | .bge _ f | .bltu _ f | .bgeu _ f => ⟨[f.ra.toNat, f.rb.toNat], none, .one⟩
  | .jal u _ => ⟨[], some (if isSpur u then 31 else 15), .one⟩
  | .ld _ f | .lds _ f => ⟨[f.ra.toNat], some f.rt.toNat, .load f.sp.toNat⟩
  | .st _ f => ⟨[f.ra.toNat, f.rt.toNat], none, .one⟩
  | .vld _ f => ⟨[f.ra.toNat], some (vKey f.vt), .vload f.sp.toNat⟩
  | .vst _ f => ⟨[f.ra.toNat, vKey f.vt, pKey f.p.toNat], none, .one⟩
  | .vadd _ f | .vsub _ f | .vmul _ f | .vmax _ f | .vmin _ f => vecUses f [vKey f.va, vKey f.vb] (lanePace f.t)
  | .vfma _ f => vecUses f [vKey f.va, vKey f.vb, vKey f.vd] .vecFloat
  | .vand _ f | .vor _ f | .vxor _ f | .vsll _ f | .vsra _ f | .vperm _ f => vecUses f [vKey f.va, vKey f.vb] .vecInt
  | .vabs _ f | .vneg _ f | .vmov _ f => vecUses f [vKey f.va] .vecInt
  | .vcmpeq _ f | .vcmplt _ f | .vcmple _ f =>
    ⟨[vKey f.va, vKey f.vb, pKey f.pm.toNat], some (pKey f.vd.toNat), .vecInt⟩
  | .vsel _ f => ⟨[vKey f.va, vKey f.vb, pKey f.pm.toNat], some (vKey f.vd), .vecInt⟩
  | .vbcast _ f => vecUses f [f.va.toNat] .vecInt
  | .vextr _ f => ⟨[vKey f.va, f.vb.toNat], some f.vd.toNat, .vecInt⟩
  | .vins _ f => ⟨[f.va.toNat, f.vb.toNat, vKey f.vd], some (vKey f.vd), .vecInt⟩
  | .vmovp _ f => ⟨[f.va.toNat], some (pKey f.vd.toNat), .one⟩
  | .vmovg _ f => ⟨[pKey f.va.toNat], some f.vd.toNat, .one⟩
  | .vgetexp _ f => vecUses f [vKey f.va] .vecFloat
  | .vscale _ f => vecUses f [vKey f.va, vKey f.vb] .vecFloat
  | .vcvt _ f => ⟨[vKey f.va, vKey f.vd], some (vKey f.vd), .vecFloat⟩
  | .exp2 _ f | .rcp _ f | .rsqrt _ f => vecUses f [vKey f.va] .special
  | .vredSum _ f | .vredMax _ f | .vredMin _ f | .vredAmax _ f => ⟨[vKey f.va, pKey f.pm.toNat], some f.vd.toNat, .reduce⟩
  | .vdot _ f => vecUses f [vKey f.va, vKey f.vb, vKey f.vd] .vecFloat
  | .cadd _ f => ⟨[f.ra.toNat, f.rb.toNat], none, .one⟩
  | .cwait _ f => ⟨[f.ra.toNat, f.rb.toNat, f.rc.toNat], none, .one⟩
  | .crd _ f | .crdf _ f | .crdh _ f => ⟨[f.ra.toNat], some f.rd.toNat, .count⟩
  | .cwaitl _ f => ⟨[f.ra.toNat], none, .one⟩
  | .cgcommit _ f | .tpin _ f => ⟨[f.ra.toNat], none, .one⟩
  | .twr _ f | .kvapp _ f => ⟨[f.ra.toNat, f.rb.toNat], none, .one⟩
  | .cgbegin _ f | .cgstat _ f | .qstat _ f => ⟨[], some f.rd.toNat, .one⟩
  | .qpush _ f => ⟨[vKey f.rb], none, .one⟩
  | .qpushn _ f => ⟨[vKey f.rb], some f.rd.toNat, .one⟩
  | .rdstep _ f | .rdcyc _ f | .rdid _ f => ⟨[], some f.rd.toNat, .one⟩
  | _ => {}

/-- A key of g0 or p0, whose value no instruction produces (R76). -/
def constKey (k : Nat) : Bool := k == 0 || k == 64

/-- Cycles from issue to dependent issue in a spur core (Table SPR-2). -/
def spurLatency (core cyc : Nat) : Pace → Nat
  | .one => 1
  | .mul | .count => 3
  | .load sp | .vload sp => if sp = 0 then 5 else if sp = 1 then 40 + Config.sliceWait core cyc % 81 else 6
  | .vecInt => 2
  | .vecFloat => 4
  | .reduce => 8
  | .special => 12

/-- The same in a grotto core, in grotto cycles (Table ALR-24). -/
def grottoLatency (core cyc : Nat) : Pace → Nat
  | .one => 1
  | .mul | .count | .load _ | .vecInt => 2
  | .vload sp => if sp = 0 then 3 else if Config.rowOpen core cyc then 20 else 36
  | .vecFloat => 3
  | .reduce => 6
  | .special => 16

/-- FCLK cycles of one issue cycle of a unit: a grotto cycle is two (R162). -/
def issueSpan (u : Agent) : Nat := if isSpur u then 1 else 2

/-- The key of a unit's issue times. -/
def unitKey : Agent → Nat
  | .spur t n => 8 * t + n
  | .grotto k => 4096 + k
/-- The key of the core of a unit. -/
def coreKey : Agent → Nat
  | .spur t n => 2 * t + n / 4
  | .grotto k => 1024 + k
/-- Issue times of a unit. -/
def boardOf (u : Agent) (s : State) : Board := SMap.get {} s.boards (unitKey u)
/-- Issue of a unit's core. -/
def coreOfUnit (u : Agent) (s : State) : CoreBoard := SMap.get {} s.cores (coreKey u)

/-- FCLK cycles from issue to dependent issue. -/
def latency (u : Agent) (cyc : Nat) (p : Pace) : Nat :=
  if isSpur u then spurLatency (coreKey u) cyc p else 2 * grottoLatency (coreKey u) cyc p

/-! Which unit issues, and when (R77, R82). -/

/-- The cycle from which nothing of its own keeps a unit's next instruction from issuing: its predecessor (R78), its operands,
and for a special function the core's special-function unit. -/
def ownReady (u : Agent) (s : State) : Nat :=
  let b := boardOf u s
  match nextInstr u s with
  | some i =>
    let x := usesOf i
    x.reads.foldl (fun m k => max m (SMap.get 0 b.ready k)) (max b.next (if x.pace = .special then (coreOfUnit u s).sfu else 0))
  | none => b.next

/-- The first cycle from now on on which a unit's next instruction can issue. -/
def issueCycle (u : Agent) (s : State) : Nat := max s.cyc (max (coreOfUnit u s).free (ownReady u s))

/-- Context `n` of logical tile `t` waits for the walk of a staged line (R220). -/
def awaitsWalk (s : State) (t n : Nat) : Bool := s.walks.any fun w => w.why == .use t n

/-- Opcode of a queue command, bits 7:0 (R148). -/
def cmdOp (c : BitVec 128) : Nat := bitsOf c.toNat 7 0

/-- Whether a matrix command that targets bank `b` has started and has not finished with it (R44): an MXMUL until
its last result, an MXDRAIN until its last row is read, one row each cycle from its start. -/
def bankBusy (t : Tile) (b now : Nat) : Bool :=
  (t.qOf 0).flights.any fun f =>
    let c := f.entry.cmd.toNat
    !f.done && bitsOf c 15 14 == b &&
      (cmdOp f.entry.cmd == 2 || (cmdOp f.entry.cmd == 3 && decide (now < f.start + bitsOf c 31 24 + 1)))

/-- The cycle from which no MXDRAIN reads bank `b` any more, which releases the bank: the one after its last row is read
(the model's choice, log entry 80). -/
def drainsEnd (x : Tile) (b : Nat) : Nat :=
  (x.qOf 0).flights.foldl (init := 0) fun m f =>
    let c := f.entry.cmd.toNat
    if cmdOp f.entry.cmd = 3 ∧ bitsOf c 15 14 = b then max m (f.start + bitsOf c 31 24 + 1) else m

/-- The cycle on which a context in WAIT issues again, where that is known (R82, R83). -/
def wakeCycle (s : State) (t n : Nat) : Option Nat :=
  let c := ctxAt s t n
  match c.st, c.wait with
  | .wait, .counter _ _ (some a) none => some (a + 12)
  | .wait, .counter _ _ _ (some m) => some (m + 12)
  | .wait, .slot _ (some c) => some (c + 2)
  | .wait, .bank b freed =>
    let x := s.tile (tileAt s t)
    let at_ := max (drainsEnd x b) (freed.getD 0)
    if bankBusy x b (max at_ s.cyc) then none else some (at_ + 2)
  | _, _ => none

/-- Context `n` of logical tile `t` as a unit. -/
def ctxUnit (t : Fin 512) (n : Nat) : Agent := .spur t (Fin.ofNat 8 n)

/-- Contexts of spur core `c` that can issue, each with its first cycle. -/
def issuers (s : State) (t : Fin 512) (c : Nat) : List (Nat × Nat) :=
  ((List.range 4).map (4 * c + ·)).filterMap fun n =>
    if (canIssue s (ctxUnit t n)).isSome && !awaitsWalk s t n then some (n, issueCycle (ctxUnit t n) s) else none

/-- The place of a context among those that can issue on one cycle: one that woke and has not issued since comes first,
earlier wakes and lower numbers ahead, unless its own instruction could not issue on its wake cycle (R82); the others follow
in rotation after the one that issued last (R77). -/
def issueRank (s : State) (t : Fin 512) (n : Nat) : List Nat :=
  let u := ctxUnit t n
  let rotation := [1, (n + 7 - (coreOfUnit u s).last) % 4]
  match (boardOf u s).woke with
  | some w => if ownReady u s ≤ w then [0, w, n] else rotation
  | none => rotation

/-- The context of a spur core that issues next and its cycle; none before a context of the core that wakes by then is
READY. -/
def coreTurn (s : State) (t : Fin 512) (c : Nat) : Option (Nat × Nat) :=
  let l := issuers s t c
  match l.map (·.2) with
  | [] => none
  | x :: r =>
    let best := r.foldl min x
    if (List.range 4).any (fun j => match wakeCycle s t (4 * c + j) with | some w => decide (w ≤ best) | none => false) then none
    else
      let ns := (l.filter fun y => y.2 == best).map (·.1)
      (ns.foldl (init := none) fun m n =>
        match m with
        | some k => if issueRank s t n < issueRank s t k then some n else m
        | none => some n).map fun n => (n, best)

/-- The queue that an instruction pushes to. -/
def pushedQueue : Option Instr → Option Nat
  | some (.qpush _ f) | some (.qpushn _ f) => some f.ra.toNat
  | _ => none

/-- Core 0 of a tile pushes to queue `q` by cycle `c`: its command enters first (R88). -/
def core0Pushes (s : State) (t : Fin 512) (q c : Nat) : Bool :=
  match coreTurn s t 0 with
  | some (n, d) => decide (d ≤ c) && pushedQueue (nextInstr (ctxUnit t n) s) == some q
  | none => false

/-! The compute activation window (R248). -/

/-- Whether a grotto stack is in SERVICE mode. -/
def serviceMode (s : State) (g : Nat) : Bool := !(rg s (.grt g) rGrtMode).bit 0
/-- A BK access. -/
def isBk : Option Instr → Bool
  | some (.vld (.grotto _) f) | some (.vst (.grotto _) f) => f.sp == 1
  | _ => false
/-- BK accesses that a stack has admitted in the sixteen grotto cycles that end with `c`. -/
def bkCount (x : Stack) (c : Nat) : Nat := x.bkLog.foldl (fun n e => if c < e.1 + 16 ∧ e.1 ≤ c then n + e.2 else n) 0
/-- The first grotto cycle from `c` on that has room for a BK access, sixteen ahead at the latest. -/
def bkRoom (x : Stack) (c : Nat) : Nat → Nat
  | 0 => c
  | n + 1 => if bkCount x c < 1024 then c else bkRoom x (c + 1) n
/-- Whether core `k` is among those that the window admits on grotto cycle `c`: waiting cores are taken in rotation after the
core admitted last. -/
def bkAdmits (s : State) (k c : Nat) : Bool :=
  let g := k / 128
  let x := s.stack (4 + g)
  let place (j : Nat) : Nat := (j % 128 + 127 - x.bkLast) % 128
  let waiting := (List.range 128).filter fun j =>
    let u : Agent := .grotto (Fin.ofNat 512 (128 * g + j))
    (canIssue s u).isSome && isBk (nextInstr u s) && decide (issueCycle u s / 2 ≤ c)
  decide ((waiting.countP fun j => decide (place j < place k)) < 1024 - bkCount x c)

/-- The cycle on which unit `u` issues its next instruction, with its code range: none where it cannot, or where another unit
comes first. -/
def turn (s : State) (u : Agent) : Option (Img × Nat) :=
  match canIssue s u, u with
  | none, _ => none
  | some img, .spur t n =>
    match coreTurn s t (n / 4) with
    | some (m, c) =>
      if m ≠ n then none
      else
        match pushedQueue (nextInstr u s) with
        | some q => if 4 ≤ n.val && core0Pushes s t q c then none else some (img, c)
        | none => some (img, c)
    | none => none
  | some img, .grotto k =>
    let c := issueCycle u s
    if isBk (nextInstr u s) && !serviceMode s (k / 128) then
      let g := bkRoom (s.stack (4 + k / 128)) (c / 2) 16
      if bkAdmits s k g then some (img, max c (2 * g)) else none
    else some (img, c)

/-! One instruction. -/

/-- A BK access of core `k` admitted now (R248). -/
def noteBk (k : Nat) (s : State) : State :=
  let i := 4 + k / 128
  let x := s.stack i
  let g := s.cyc / 2
  s.setStack i { x with
    bkLog := SMap.put g (SMap.get 0 x.bkLog g + 1) (x.bkLog.filter fun e => decide (g < e.1 + 16)), bkLast := k % 128 }

/-- A unit in WAIT. -/
def unitWaits (u : Agent) (s : State) : Bool :=
  match u with
  | .spur t n => (ctxAt s t n).st == .wait
  | .grotto k => (s.grotto k).st == .wait

/-- The issue times that the instruction `i` leaves which unit `u` issued in state `s` and which led to `t`: its result, its
core's next issue (R77, R78). -/
def noteIssue (u : Agent) (i : Option Instr) (s t : State) : State :=
  let x := match i with | some i => usesOf i | none => {}
  let b := boardOf u t
  let c := coreOfUnit u s
  let ready := match x.writes with
    | some k => if constKey k || unitWaits u t then b.ready else SMap.put k (s.cyc + latency u s.cyc x.pace) b.ready
    | none => b.ready
  { t with
    boards := SMap.put (unitKey u) ⟨ready, max b.next (s.cyc + issueSpan u), none⟩ t.boards
    cores := SMap.put (coreKey u)
      ⟨match u with | .spur _ n => n % 4 | .grotto _ => 0, s.cyc + issueSpan u,
        if x.pace = .special then s.cyc + (if isSpur u then 4 else 16) else c.sfu⟩ t.cores }

/-- A taken branch or jump: the next instruction of the unit issues three cycles later, or two grotto cycles (Tables SPR-2 and
ALR-24). -/
def noteJump (u : Agent) (s : State) : State :=
  { s with boards := SMap.put (unitKey u) { boardOf u s with next := s.cyc + (if isSpur u then 3 else 4) } s.boards }

/-- The end of an instruction in state `s`, with the checks that R118 places last: the target of a taken jump
(step 6), and the last word of the code range (step 8). -/
def settle (u : Agent) (img : Img) (s : State) : Issue → State
  | .halt c => haltUnit u c s
  | .haltIn c s' => haltUnit u c s'
  | .skip s' => s'
  | .done s' => if residueBad s u then residueHalt u s else s'
  | .jump target s' =>
    if (img.loadOff : Int) ≤ target ∧ target < img.loadOff + img.codeSize then
      if residueBad s u then residueHalt u s else setPc u target.toNat (noteJump u s')
    else haltUnit u .outOfRange s
  | .go s' =>
    if pcOf u s + 4 = img.loadOff + img.codeSize then haltUnit u .outOfRange s
    else if residueBad s u then residueHalt u s
    else setPc u (pcOf u s + 4) s'
  | .wait w s' =>
    if pcOf u s + 4 = img.loadOff + img.codeSize then haltUnit u .outOfRange s
    else if residueBad s u then residueHalt u s
    else enterWait u w (setPc u (pcOf u s + 4) s')
  | .hold w s' => enterWait u w s'

/-- What follows from an issue in state `s` that led to `t`: the issue times, and the step that the debug port granted
(R445). -/
def finish (u : Agent) (i : Option Instr) (s t : State) : State :=
  let t := noteIssue u i s t
  match u with
  | .spur l n => spendStep (debugKey l n) s t
  | .grotto _ => t

/-- The instruction `i` of unit `u`: nothing where it is not the unit's turn, or another instruction stands at its PC. A word
that cannot be read, or defines no instruction, halts the unit; else the first failing check in the order of R118 does, and
with none failing `body` says what the instruction does in the state of its cycle. -/
def issue (i : Instr) (u : Agent) (s : State) (checks : List (Bool × Code)) (body : State → Issue) :
    Host.Outcome State Fault Refusal :=
  match turn s u with
  | none => .next s
  | some (img, c) =>
    let s1 := s.upTo c
    match fetch u s1 with
    | (none, s') => .next (finish u none s1 (haltUnit u .eccUncorrected s'))
    | (some w, s') =>
      match decodeAlori u w with
      | none => .next (finish u none s1 (haltUnit u (noInstrCode w) s'))
      | some j =>
        if j = i then
          let o := match firstOf checks with
            | some e => Issue.halt e
            | none => body s'
          .next (match o with
            | .skip t => t
            | o => finish u (some i) s1 (settle u img s' o))
        else .next s

end Sys2Proof.Machine
end

