-- ==== Sys2Proof/Machine/Translate.lean ====
section
/-! DEFINITION. Translation: tables, walks, buffers (R260 to R269, R475). -/
namespace Sys2Proof.Machine

/-- Whether a device physical address lies in a stack range of partition `p` (R211): its stack and place. -/
def inRange (s : State) (p a : Nat) : Option (Nat × Nat) :=
  match placeOf a with
  | .stack k x =>
    match rangeAt s k x with
    | some (q, _) => if q = p then some (k, x) else none
    | none => none
  | _ => none

/-- The 8-byte entry at a device physical address, with entries that a group is about to write put over it;
`none` outside the partition's stack ranges and in an uncorrectable codeword (R263). -/
def readEntry (s : State) (p : Nat) (excess : List (Nat × Nat)) (a : Nat) : Option Nat :=
  match excess.reverse.find? fun e => e.1 == a with
  | some e => some e.2
  | none =>
    match inRange s p a with
    | some (k, x) =>
      let z := cwSize s (.stack k) x
      if eccCheck s (.stack k) (x / z * z) = .bad then none else some (s.mem.readNat x 8)
    | none => none

/-- V of a translation entry. -/
def entryV (e : Nat) : Bool := e.testBit 0
/-- T of a translation entry. -/
def entryT (e : Nat) : Bool := e.testBit 1
/-- The address that OA names. -/
def entryOA (e : Nat) : Nat := bitsOf e 47 12 * 4096
/-- PGS of a translation entry. -/
def entryPGS (e : Nat) : Nat := bitsOf e 7 5
/-- The fields that Table KV-2 marks 0 are 0; `pgs` says whether PGS counts among them. -/
def entryClean (e : Nat) (pgs : Bool) : Bool :=
  bitsOf e 55 48 == 0 && bitsOf e 11 8 == 0 && bitsOf e 4 2 == 0 && (!pgs || entryPGS e == 0)

/-- What a walk reaches: the level-2 entry of the address, the level-3 entry and page code where a level-3 table
is reached, the output (start of the page or block, its size, its address), and the entries read. -/
structure WalkPath where
  l2 : Option Nat := none
  l3 : Option (Nat × Nat) := none
  out : Option (Nat × Nat × Nat) := none
  used : List Nat := []
  deriving DecidableEq, Repr

/-- The third level (R260, R262). -/
def walkL3 (s : State) (p : Nat) (excess : List (Nat × Nat)) (va e2 : Nat) (w : WalkPath) : WalkPath :=
  let sz := entryPGS e2
  let tab := entryOA e2
  if 4 < sz ∨ tab % (65536 / 2 ^ sz) ≠ 0 then w
  else
    let a := tab + 8 * bitsOf va 28 (16 + sz)
    if (inRange s p a).isNone then w
    else
      let w := { w with l3 := some (a, sz), used := a :: w.used }
      match readEntry s p excess a with
      | none => w
      | some e =>
        let page := 65536 * 2 ^ sz
        if entryV e && !entryT e && entryClean e true && entryOA e % page == 0 then
          { w with out := some (va / page * page, page, entryOA e) }
        else w

/-- The second level. -/
def walkL2 (s : State) (p : Nat) (excess : List (Nat × Nat)) (va e1 : Nat) (w : WalkPath) : WalkPath :=
  let a := entryOA e1 + 8 * bitsOf va 41 29
  if (inRange s p a).isNone then w
  else
    let w := { w with l2 := some a, used := a :: w.used }
    match readEntry s p excess a with
    | none => w
    | some e =>
      if !entryV e then w
      else if entryT e then (if entryClean e false then walkL3 s p excess va e w else w)
      else if entryClean e true && entryOA e % 536870912 == 0 then
        { w with out := some (va / 536870912 * 536870912, 536870912, entryOA e) }
      else w

/-- A walk of the partition's tables for an address, through the entries a group is about to write. -/
def walkTables (s : State) (p : Nat) (excess : List (Nat × Nat)) (va : Nat) : WalkPath :=
  let root := rgEff s (.kvp p) rKvpXltroot
  let a := root.field 47 13 * 8192 + 8 * bitsOf va 51 42
  if !root.bit 63 || decide (2 ^ 52 ≤ va) || (inRange s p a).isNone then {}
  else
    let w : WalkPath := { used := [a] }
    match readEntry s p excess a with
    | none => w
    | some e =>
      if entryV e && entryT e && entryClean e true && entryOA e % 65536 == 0 then walkL2 s p excess va e w else w

/-- Whether an output address lies in a place of the partition (R263): else the walk counts as failing. -/
def legalOutput (s : State) (p a : Nat) : Bool :=
  match placeOf a with
  | .stack _ _ => (inRange s p a).isSome
  | .host port _ => port == partPort s p
  | .guest _ => true
  | _ => false

/-- Whether an access through an output address goes on: it is legal, or names the host memory of a port that does not own
the partition, where the access ends with NOT_OWNER (R33, log entry 32). -/
def openOutput (s : State) (p a : Nat) : Bool :=
  match placeOf a with
  | .host _ _ => true
  | _ => legalOutput s p a

/-- The physical address of `va` under an entry that covers it, where an access through it goes on. -/
def TEntry.phys (e : TEntry) (s : State) (va : Nat) : Option Nat :=
  match e.oa with
  | some oa =>
    let a := oa + (va - e.va)
    if openOutput s e.part a then some a else none
  | none => none

/-- Whether `va` has a legal translation under an entry that covers it (R263). -/
def TEntry.legal (e : TEntry) (s : State) (va : Nat) : Bool :=
  match e.oa with
  | some oa => legalOutput s e.part (oa + (va - e.va))
  | none => false

/-- The entry of a buffer that covers an address of a partition. -/
def tbufFind (b : List TEntry) (p va : Nat) : Option TEntry :=
  b.find? fun e => e.part == p && decide (e.va ≤ va ∧ va < e.va + e.size)

/-- Whether an entry is pinned. -/
def TEntry.pinned (e : TEntry) : Bool := e.pinNow || e.pinNext

/-- A full buffer less its least recently used unpinned entry. -/
def evictLru (b : List TEntry) : List TEntry :=
  let r := b.reverse
  match r.find? fun e => !e.pinned with
  | some e => (r.erase e).reverse
  | none => b

/-- A buffer with an entry placed as the most recent; `size` entries at most (R264, R269). -/
def tbufPlace (size : Nat) (b : List TEntry) (e : TEntry) : List TEntry :=
  let old := b.find? fun x => x.part == e.part && x.va == e.va
  let e := match old with
    | some o => { e with pinNow := e.pinNow || o.pinNow, pinNext := e.pinNext || o.pinNext }
    | none => e
  let b := b.filter fun x => !(x.part == e.part && x.va == e.va)
  e :: (if size ≤ b.length then evictLru b else b)

/-- A used entry becomes the most recent. -/
def tbufTouch (b : List TEntry) (e : TEntry) : List TEntry := e :: b.erase e

/-- A walk counted, and its failure (R475, KVP_WALKCNT): a failing walk while the partition is not RUNNING is
logged from 0x6103.  The entries that it reads are the partition's own ordinary accesses (R256), charged to it (R265), and
checked as every read is (R226, R227). -/
def countWalk (p va : Nat) (failed : Bool) (s : State) : State :=
  let s := (walkTables s p [] va).used.reverse.foldl (init := s) fun s a =>
    match inRange s p a with
    | some (k, x) => noteRead p k x s
    | none => s
  let s := rsat s (.kvp p) rKvpWalkcnt 31 0 1
  if failed then
    let s := rsat s (.kvp p) rKvpWalkcnt 63 32 1
    if partRunning s p then s else logEvent srcWalker .outOfRange (va % 2 ^ 52 + 2 ^ 56 * p) s
  else s

/-- The buffer entry that a walk gives for an address: its output, or an empty entry stepping as R267 gives. -/
def walkEntry (s : State) (p va : Nat) : TEntry :=
  let w := walkTables s p [] va
  match w.out with
  | some (base, size, oa) => ⟨p, base, size, some oa, false, false⟩
  | none =>
    match w.l3 with
    | some (_, sz) => ⟨p, va / (65536 * 2 ^ sz) * (65536 * 2 ^ sz), 65536 * 2 ^ sz, none, false, false⟩
    | none => ⟨p, va / 65536 * 65536, 65536, none, false, false⟩

/-- An access by a unit of logical tile `t` on physical tile `h`: the physical address, where the access finds
one. A miss, or a use of an entry that is still empty, is walked at once, counted, and reported as
TRANSLATION_WALK while the partition is RUNNING (R266, R267). -/
def xlateUse (h t unit p va : Nat) (s : State) : Option Nat × State :=
  match tbufFind (s.tile h).tbuf p va with
  | some e =>
    if e.oa.isSome then (e.phys s va, s.updTile h fun x => { x with tbuf := tbufTouch x.tbuf e })
    else walkNow s
  | none => walkNow s
where
  /-- The walk on use. -/
  walkNow (s : State) : Option Nat × State :=
    let e := walkEntry s p va
    let r := e.phys s va
    let s := reportBreakRunning p 1 unit t (srcTile h) (countWalk p va (!e.legal s va) s)
    (r, if e.oa.isSome then s.updTile h fun x => { x with tbuf := tbufPlace 256 x.tbuf e } else s)

/-- An arrival translated in the saddle (R269). -/
def xlateArrival (p va : Nat) (s : State) : Option Nat × State :=
  match tbufFind s.arrivals p va with
  | some e => (e.phys s va, { s with arrivals := tbufTouch s.arrivals e })
  | none =>
    let e := walkEntry s p va
    let r := e.phys s va
    let s := reportBreakRunning p 1 0xA 0xFFFF (srcPart p) (countWalk p va (!e.legal s va) s)
    (r, if e.oa.isSome then { s with arrivals := tbufPlace 1024 s.arrivals e } else s)

/-- A read made by the device itself through a partition's translation (traverse LOAD, refill lists). -/
def xlateDevice (p va : Nat) (s : State) : Option Nat × State :=
  let e := walkEntry s p va
  let r := e.phys s va
  (r, countWalk p va (!e.legal s va) s)

/-- Staging of a VA line by a context (R220): a hit, an empty entry or an answered walk gives what is registered;
otherwise the walk must come first, and it is asked for. -/
inductive StageXl where
  | ready (phys : Option Nat) (s : State)
  | walk (s : State)

/-- The answer of a walk for the use that a unit of tile `h` waits for, which the unit takes up (R220). -/
def takeAnswer (h unit : Nat) (s : State) : State := s.updTile h fun x => { x with answers := SMap.drop unit x.answers }

/-- The translation at staging: an answer of a walk that places nothing serves this one use (R220, R268). -/
def xlateStage (h t unit p va : Nat) (s : State) : StageXl :=
  let a : TEntry := SMap.get ⟨32, 0, 0, none, false, false⟩ (s.tile h).answers unit
  if a.part = p ∧ a.va = va then .ready (a.phys s va) (takeAnswer h unit s)
  else
    match tbufFind (s.tile h).tbuf p va with
    | some e => .ready (e.phys s va) (takeAnswer h unit (s.updTile h fun x => { x with tbuf := tbufTouch x.tbuf e }))
    | none =>
      if s.walks.any fun w => w.part == p && w.va == va && w.why == .use t unit then .walk s
      else
        let s := reportBreakRunning p 1 unit t (srcTile h) s
        .walk { s with walks := s.walks ++ [⟨p, va, .use t unit, s.cyc, true⟩] }

/-- Walks that the walker runs: the first 64 of those waiting (R265). -/
def walkRuns (i : Nat) : Bool := decide (i < 64)

/-- What a finished walk gives (R144, R220, R265, R268): a pin, empty where there is no translation; for a use the
translation, or where it is not to be held the answer for that use alone. -/
def placeWalk (w : Walk) (e : TEntry) (s : State) : State :=
  match w.why with
  | .tpin t next =>
    let e := { e with pinNow := e.pinNow || !next, pinNext := next }
    if w.placed then s.updTile (tileAt s t) fun x => { x with tbuf := tbufPlace 256 x.tbuf e } else s
  | .use t unit =>
    s.updTile (tileAt s t) fun x =>
      if w.placed ∧ e.oa.isSome then { x with tbuf := tbufPlace 256 x.tbuf e }
      else { x with answers := SMap.put unit ⟨w.part, w.va, 1, e.phys s w.va, false, false⟩ x.answers }
  | .arrival => if w.placed && e.oa.isSome then { s with arrivals := tbufPlace 1024 s.arrivals e } else s

/-- WALK_DONE: the `i`-th walk ends and delivers its translation (R265, R266, R475). -/
def execWalkDone (i : Nat) (s : State) : Host.Outcome State Fault Refusal :=
  match s.walks[i]? with
  | some w =>
    if walkRuns i then
      let e := walkEntry s w.part w.va
      let s := countWalk w.part w.va (!e.legal s w.va) { s with walks := s.walks.eraseIdx i }
      .next (placeWalk w e s)
    else .next s
  | none => .next s

end Sys2Proof.Machine
end

