-- ==== Sys2Proof/Machine/Commit.lean ====
section
/-! DEFINITION. Commit groups: staging, capacity, the checks and effects of a commit (R134 to R146, R219 to R223,
R272 to R283). -/
namespace Sys2Proof.Machine

/-- The counter table entry of an own-block index of logical tile `t`. -/
def ownCnt (t i : Nat) : Cnt := ⟨t, i⟩

/-- Lines that the appends of a group hold, one for each KVAPP (Table ALR-11). -/
def Group.kvapps (g : Group) : List (Nat × Nat) :=
  g.ops.filterMap fun o => match o with | .kvapp va n _ => some (va, n) | .twr _ _ => none
/-- KVAPPs that take a page. -/
def Group.takes (g : Group) : Nat := g.kvapps.countP fun x => x.2 % 256 == 0
/-- Lines that a group consumes: each append one, each line of its stores one unless the group held it by an append then
(Table ALR-11). -/
def Group.usedLines (g : Group) : Nat := (g.lines.countP fun l => !l.byApp) + g.kvapps.length
/-- Counter advances that a group consumes. -/
def Group.usedAdds (g : Group) : Nat := g.adds.length + g.takes
/-- Translation writes that a group consumes. -/
def Group.usedXlt (g : Group) : Nat := g.ops.length - g.kvapps.length + g.takes

/-- The state with the group of physical tile `h` replaced. -/
def setGroup (h : Nat) (g : Group) (s : State) : State := s.updTile h fun x => { x with group := some g }

/-- Whether a group holds a line already, by a store or an append. -/
def Group.hasLine (g : Group) (sp : GSpace) (a : Nat) : Bool :=
  g.lines.any (fun l => l.space == sp && l.addr == a) || (sp == .va && g.kvapps.any fun x => x.1 / 64 * 64 == a)

/-- Bytes put over the bytes that a line holds. -/
def putBytes (m : SMap Byte) (bs : List (Nat × Byte)) : SMap Byte := bs.foldl (fun m b => SMap.put b.1 b.2 m) m

/-- The group with bytes staged in one line. -/
def Group.stageLine (g : Group) (sp : GSpace) (a : Nat) (bs : List (Nat × Byte)) (phys : Option Nat) : Group :=
  if g.lines.any fun l => l.space == sp && l.addr == a then
    { g with lines := g.lines.map fun l => if l.space = sp ∧ l.addr = a then { l with bytes := putBytes l.bytes bs } else l }
  else { g with lines := g.lines ++ [⟨sp, a, putBytes [] bs, phys, g.hasLine sp a⟩] }

/-- A store staged in a group (R135, R136): nothing in an aborted group; past capacity the group aborts. A store
never spans two lines, for it is aligned (R96). -/
def stageStore (g : Group) (sp : GSpace) (a : Nat) (bs : List (Nat × Byte)) (phys : Option Nat) (used : List Nat) : Group :=
  if g.aborted.isSome then g
  else if !g.hasLine sp a && decide (32 ≤ g.usedLines) then g.abort .cgAbortCapacity
  else { g.stageLine sp a bs phys with used := used ++ g.used }

/-- A counter advance staged in a group. -/
def stageAdd (g : Group) (c : Cnt) (n : Nat) : Group :=
  if g.aborted.isSome then g
  else if 8 ≤ g.usedAdds then g.abort .cgAbortCapacity
  else { g with adds := g.adds ++ [⟨c, n⟩] }

/-- A translation write staged in a group. -/
def stageTwr (g : Group) (va e : Nat) (used : List Nat) : Group :=
  if g.aborted.isSome then g
  else if 4 ≤ g.usedXlt then g.abort .cgAbortCapacity
  else { g with ops := g.ops ++ [.twr va (BitVec.ofNat 64 e)], used := used ++ g.used }

/-- An append staged in a group. -/
def stageKvapp (g : Group) (va n : Nat) (phys : Option Nat) (used : List Nat) : Group :=
  if g.aborted.isSome then g
  else
    let page := n % 256 == 0
    if decide (32 ≤ g.usedLines) || (page && (decide (8 ≤ g.usedAdds) || decide (4 ≤ g.usedXlt))) then
      g.abort .cgAbortCapacity
    else { g with ops := g.ops ++ [.kvapp va n (phys.map fun a => a / 64 * 64)], used := used ++ g.used }

/-- Commit groups are frozen during a supply dip (R408). -/
def commitsFrozen (s : State) : Bool := (rg s .clk rClkState).bit 0

/-! Pools. -/

/-- Configuration of pool `q`, in effect. -/
def poolCfg (s : State) (p q : Nat) : Word := rgEff s (.kvp p) (rKvpPoolcfgq q)
/-- Entries of a pool's ring. -/
def poolN (s : State) (p q : Nat) : Nat := 2 ^ (poolCfg s p q).field 52 48
/-- H of a pool. -/
def poolHead (s : State) (p q : Nat) : Nat := hvValue s ((poolCfg s p q).field 11 0)
/-- A host-visible counter as it stands after every write of the cycles before this one. -/
def hvBefore (s : State) (i : Nat) : Nat :=
  let x := SMap.get (s.cyc + 1, 0) s.hvWas i
  if x.1 = s.cyc then x.2 else hvValue s i
/-- PGS of a pool; a pool above 7, which holds no pages (R278), is taken to have PGS 0, and its entry's PGS
is not compared (the model's choice, log entry 85). -/
def poolPgs (s : State) (p q : Nat) : Nat := if q < 8 then (poolCfg s p q).field 58 56 else 0
/-- Pages that a pool holds for a take on this cycle (R272, R273). -/
def poolAvail (s : State) (p q : Nat) : Nat :=
  if q < 8 ∧ (poolCfg s p q).bit 63 then hvBefore s ((poolCfg s p q).field 27 16) - poolHead s p q else 0
/-- Where the ring slot of the `k`-th next take lies (R272, R273). -/
def poolSlotAt (s : State) (p q k : Nat) : Nat :=
  (rgEff s (.kvp p) (rKvpPoolringq q)).field 47 3 * 8 + 8 * ((poolHead s p q + k) % poolN s p q)
/-- The ring entry that the `k`-th next take reads. -/
def poolSlot (s : State) (p q k : Nat) : Nat := physNat s (poolSlotAt s p q k) 8

/-- An append under commit: lengths-table entry, its address, expected length, pool, and for one that takes a
page the level-3 entry to write and the index of its take in the pool. -/
structure Append where
  entry : Nat
  va : Nat
  n : Nat
  pool : Nat
  l3 : Option (Nat × Nat)
  take : Nat
  deriving DecidableEq, Repr

/-- A group under commit: entries it writes, its appends, the first uncorrectable codeword that it has met. -/
structure CommitWork where
  excess : List (Nat × Nat) := []
  apps : List Append := []
  bad : Option (MemId × Nat) := none
  deriving DecidableEq, Repr

/-- The uncorrectable codeword of a stack that a device physical address lies in, where it lies in one. -/
def badUnit (s : State) (a : Nat) : Option (MemId × Nat) :=
  match placeOf a with
  | .stack k x =>
    let z := cwSize s (.stack k) x
    if eccCheck s (.stack k) (x / z * z) = .bad then some (.stack k, x / z * z) else none
  | _ => none

/-- The work with an uncorrectable codeword met: what it holds cannot be checked, and the group fails at check 6 of R141. -/
def CommitWork.meet (w : CommitWork) (b : Option (MemId × Nat)) : CommitWork :=
  { w with bad := match w.bad with | some x => some x | none => b }

/-- The first uncorrectable entry on the path of an address, where the group does not write it itself. -/
def pathBad (s : State) (p va : Nat) (w : CommitWork) : Option (MemId × Nat) :=
  (walkTables s p w.excess va).used.reverse.findSome? fun a => if w.excess.any fun e => e.1 == a then none else badUnit s a

/-- Checks 1 to 4 of Table KV-5 for one append. -/
def checkKvapp (s : State) (p va n : Nat) (w : CommitWork) : Except (Code × CommitWork) CommitWork :=
  if (pathBad s p va w).isSome then .ok (w.meet (pathBad s p va w)) else
  let out := (walkTables s p w.excess va).out
  match out.bind fun (base, _, oa) => (inRange s p (oa + (va - base))).map (·.2) with
  | none => .error (.outOfRange, {})
  | some a =>
    if (badUnit s a).isSome then .ok (w.meet (badUnit s a)) else
    let earlier := w.apps.countP fun x => x.entry == a
    if s.mem.readNat (a + 12) 2 % 2 = 1 then .error (.wrongState, {})
    else if s.mem.readNat a 8 + earlier ≠ n then .error (.cgAbortConflict, {})
    else
      let q := s.mem.readNat (a + 14) 1
      if n % 256 ≠ 0 then .ok { w with apps := w.apps ++ [⟨a, va, n, q, none, 0⟩] }
      else
        let page := s.mem.readNat (a + 16) 8 + n / 256 * (65536 * 2 ^ poolPgs s p q)
        if (pathBad s p page { w with excess := [] }).isSome && ((walkTables s p w.excess page).l3).isNone then
          .ok (w.meet (pathBad s p page w))
        else
          match (walkTables s p w.excess page).l3 with
          | none => .error (.outOfRange, {})
          | some (l3, sz) =>
            if q < 8 ∧ sz ≠ poolPgs s p q then .error (.outOfRange, {})
            else
              let k := w.apps.countP fun x => x.pool == q && x.l3.isSome
              .ok { w with apps := w.apps ++ [⟨a, va, n, q, some (l3, sz), k⟩] }

/-- The checks of R145 for one translation write: the entry that it writes. -/
def checkTwr (s : State) (p va e : Nat) (w : CommitWork) : Except (Code × CommitWork) CommitWork :=
  let x := walkTables s p w.excess va
  match x.l3, x.l2 with
  | some (a, sz), _ =>
    if va % (65536 * 2 ^ sz) ≠ 0 then .error (.outOfRange, {}) else .ok { w with excess := w.excess ++ [(a, e)] }
  | none, some a =>
    if (pathBad s p va w).isSome then .ok (w.meet (pathBad s p va w))
    else
      let cur := (readEntry s p w.excess a).getD 0
      if entryV cur && entryT cur then .error (.outOfRange, {})
      else if va % 536870912 ≠ 0 then .error (.outOfRange, {})
      else .ok { w with excess := w.excess ++ [(a, e)] }
  | none, none => if (pathBad s p va w).isSome then .ok (w.meet (pathBad s p va w)) else .error (.outOfRange, {})

/-- The check of one staged append or translation write. -/
def checkOp (s : State) (p : Nat) (w : CommitWork) : GOp → Except (Code × CommitWork) CommitWork
  | .twr va e => checkTwr s p va e.toNat w
  | .kvapp va n _ => checkKvapp s p va n w

/-- Check 2 of R141: appends and translation writes in staging order. -/
def checkOps (s : State) (p : Nat) : List GOp → CommitWork → Except (Code × CommitWork) CommitWork
  | [], w => .ok w
  | o :: r, w =>
    match checkOp s p w o with
    | .ok w => checkOps s p r w
    | .error c => .error c

/-- Pages that a group's appends need from a pool. -/
def CommitWork.need (w : CommitWork) (q : Nat) : Nat := w.apps.countP fun x => x.pool == q && x.l3.isSome
/-- Pools that the appends take from, that do not hold enough (check 3 of R141). -/
def shortPools (s : State) (p : Nat) (w : CommitWork) : List Nat :=
  (List.range 256).filter fun q => decide (poolAvail s p q < w.need q)

/-- The page that an append takes. -/
def Append.page (a : Append) (s : State) (p : Nat) : Nat := poolSlot s p a.pool a.take
/-- R274: the page taken is aligned to the pool's page size and lies in a stack range of the partition. -/
def Append.pageOk (a : Append) (s : State) (p : Nat) : Bool :=
  match a.l3 with
  | none => true
  | some (_, sz) =>
    let g := a.page s p
    g % (65536 * 2 ^ sz) == 0 && (inRange s p g).isSome

/-- The level-3 entry of a page: V = 1, T = 0, OA = the page. -/
def pageEntry (page : Nat) : Nat := page / 4096 * 4096 + 1

/-- All entries that the group writes at the commit point, those of the appends last, whatever the staging order
(the model's choice, log entry 84). -/
def CommitWork.writes (w : CommitWork) (s : State) (p : Nat) : List (Nat × Nat) :=
  w.excess ++ w.apps.filterMap fun a => a.l3.map fun x => (x.1, pageEntry (a.page s p))

/-- Whether a VA falls in a page that the group maps itself (R138). -/
def ownMapping (s : State) (p : Nat) (excess : List (Nat × Nat)) (va : Nat) : Bool :=
  (walkTables s p excess va).used.any fun a => excess.any fun e => e.1 == a

/-- What the staged operations of a group come to against the tables as they stand, up to the first that fails. -/
def opsWork (s : State) (p : Nat) : List GOp → CommitWork → CommitWork
  | [], w => w
  | o :: r, w =>
    match checkOp s p w o with
    | .ok w => opsWork s p r w
    | .error _ => w
/-- The translation entries that staged operations would write now. -/
def opsWrites (s : State) (p : Nat) (ops : List GOp) : List (Nat × Nat) := (opsWork s p ops {}).writes s p
/-- Where in the stacks entries lie, whichever window names them. -/
def entryPlaces (s : State) (p : Nat) (as : List Nat) : List Nat := as.filterMap fun a => (inRange s p a).map (·.2)
/-- The translation entries that staging an access to `va` uses, through the mappings of the group's operations (R221). -/
def stagedUses (s : State) (p : Nat) (g : Group) (va : Nat) : List Nat :=
  entryPlaces s p (walkTables s p (opsWrites s p g.ops) va).used
/-- The physical line registered for a staged address: none in a page that the group maps itself (R220, R221). -/
def registered (s : State) (p : Nat) (g : Group) (va : Nat) (phys : Option Nat) : Option Nat :=
  if ownMapping s p (opsWrites s p g.ops) va then none else (phys.bind fun x => inRange s p x).map (·.2)

/-- A staged VA line's place at commit, through the group's own mappings (check 5 of R141). -/
def linePlace (s : State) (p : Nat) (excess : List (Nat × Nat)) (h : Nat) (l : GLine) : Option (MemId × Nat) :=
  match l.space with
  | .ts => some (.store h, l.addr)
  | .sl => some (.slice h, l.addr)
  | .va =>
    match (walkTables s p excess l.addr).out with
    | some (base, _, oa) => (inRange s p (oa + (l.addr - base))).map fun x => (.stack x.1, x.2)
    | none => none

/-- The masked bytes of a line moved to where the line lies. -/
def GLine.moved (l : GLine) (a : Nat) : SMap Byte := l.bytes.map fun b => (a + (b.1 - l.addr), b.2)

/-- The bytes that a group's lines write, gathered by memory: lines of one unit are one write (R208, R223). -/
def gather (s : State) (p h : Nat) (excess : List (Nat × Nat)) (g : Group) : List (MemId × SMap Byte) :=
  g.lines.foldl (init := []) fun m l =>
    match linePlace s p excess h l with
    | some (i, a) =>
      match m.find? fun e => e.1 == i with
      | some _ => m.map fun e => if e.1 = i then (i, putBytes e.2 (l.moved a)) else e
      | none => m ++ [(i, putBytes [] (l.moved a))]
    | none => m

/-- The codewords of a memory that bytes written touch and do not cover (R223). -/
def partWritten (s : State) (i : MemId) (bs : SMap Byte) : List Nat :=
  ((bs.map fun b => b.1 / cwSize s i b.1 * cwSize s i b.1).eraseDups).filter fun c =>
    !((List.range (cwSize s i c)).all fun j => bs.has (c + j))

/-- The codewords that a group writes only in part: of its lines, and of the entries it writes. -/
def partsOf (s : State) (p h : Nat) (excess : List (Nat × Nat)) (g : Group) : List (MemId × Nat) :=
  (excess.filterMap fun e => (inRange s p e.1).map fun x => (MemId.stack x.1, x.2 / cwSize s (.stack x.1) x.2 * cwSize s (.stack x.1) x.2)) ++
    (gather s p h excess g).flatMap fun e => (partWritten s e.1 e.2).map fun c => (e.1, c)

/-- The first uncorrectable codeword that a group writes in part (R223). -/
def badWritten (s : State) (p h : Nat) (excess : List (Nat × Nat)) (g : Group) : Option (MemId × Nat) :=
  (partsOf s p h excess g).find? fun x => eccCheck s x.1 x.2 == .bad

/-- Check 6 of Table KV-5 for an append: its page, where the ring slot can be read. -/
def Append.fails (a : Append) (s : State) (p : Nat) : Bool :=
  a.l3.isSome && (badUnit s (poolSlotAt s p a.pool a.take)).isNone && !a.pageOk s p
/-- The first uncorrectable codeword among the ring slots that a group's appends take. -/
def CommitWork.badSlot (w : CommitWork) (s : State) (p : Nat) : Option (MemId × Nat) :=
  w.apps.findSome? fun a => if a.l3.isSome then badUnit s (poolSlotAt s p a.pool a.take) else none

/-- The outcome of a group's checks, in the order of R141; what cannot be read fails at the last of them. -/
def commitChecks (s : State) (p h : Nat) (g : Group) : Except (Code × CommitWork) CommitWork :=
  match g.aborted with
  | some c => .error (c, {})
  | none =>
    match checkOps s p g.ops {} with
    | .error x => .error x
    | .ok w =>
      if shortPools s p w ≠ [] then .error (.kvPoolEmpty, w)
      else if w.apps.any fun a => a.fails s p then .error (.outOfRange, w)
      else
        let excess := w.writes s p
        let bad := ((w.meet (w.badSlot s p)).meet (badWritten s p h excess g)).bad
        if bad.isNone && g.lines.any fun l => (linePlace s p excess h l).isNone then .error (.outOfRange, w)
        else if bad.isSome then .error (.cgAbortFault, { w with bad := bad })
        else .ok w

/-- A codeword that the checks of a group have read: a stack transfers its unit, and a corrected one counts in its drip
counter (R208, R226). -/
def noteCodeword (p : Nat) (x : MemId × Nat) (s : State) : State :=
  let s := match x.1 with
    | .stack k => ordinaryAccess (some p) k x.2 1 s
    | _ => s
  dripAdd (memDrip x.1 x.2) (memSrc x.1) (memHolder s x.1 x.2) (if eccCheck s x.1 x.2 = .corrected then 1 else 0) s

/-- The codewords that the checks of a group read beside its walks: lengths-table entries; and once checks 2 and 3 have passed
the ring slots, and what it writes in part (R223). -/
def commitReads (s : State) (p h : Nat) (g : Group) : List (MemId × Nat) :=
  let w := opsWork s p g.ops {}
  let unit (a : Nat) : Option (MemId × Nat) :=
    (inRange s p a).map fun x => (MemId.stack x.1, x.2 / cwSize s (.stack x.1) x.2 * cwSize s (.stack x.1) x.2)
  let passed := (match checkOps s p g.ops {} with | .ok _ => true | .error _ => false) && shortPools s p w == []
  ((w.apps.filterMap fun a => unit a.entry) ++
    if passed then
      (w.apps.filterMap fun a => if a.l3.isSome then unit (poolSlotAt s p a.pool a.take) else none) ++
        partsOf s p h (w.writes s p) g
    else []).eraseDups

/-- Marks a lengths-table entry HELD (R282): FLAGS, HSTEP and HCODE, by one write of the line outside the group;
open jobs whose run covers the entry count it (R330). -/
def markHeld (p h : Nat) (a : Append) (s : State) : State :=
  let flags := s.mem.readNat (a.entry + 12) 2
  let line := s.mem.readBytes a.entry 64
  let line := (line.take 12 ++ bytesOf 2 (flags / 2 * 2 + 1) ++ (line.drop 14).take 18
    ++ bytesOf 4 (curStep s p) ++ bytesOf 2 (Code.kvPoolEmpty).toNat ++ line.drop 38)
  let s := match inRange s p a.entry with
    | some (k, x) => memWrite (some h) (.stack k) x line (ordinaryAccess (some p) k x 64 s)
    | none => s
  s.updPart p fun y =>
    { y with heldMarks := a.va :: y.heldMarks
             hq := y.hq.map fun e => (e.1, { e.2 with jobs := e.2.jobs.map fun j =>
               if j.lenva ≤ a.va ∧ a.va < j.lenva + 64 * j.nseq then { j with heldCnt := j.heldCnt + 1 } else j }) }

/-- The effects of KV_POOL_EMPTY: each pool that fell short counts the failure, and its later appends are marked
HELD (R282). -/
def failEmpty (p h : Nat) (w : CommitWork) (s : State) : State :=
  (shortPools s p w).foldl (init := s) fun t q =>
    let t := if q < 8 then rsat t (.kvp p) (rKvpPoolstatq q) 47 32 1 else t
    let later := (w.apps.filter fun a => a.pool == q && a.l3.isSome).drop (poolAvail s p q)
    later.foldl (init := t) fun t a => markHeld p h a t

/-- The report of a bad ring entry (R274). -/
def failBadEntry (p : Nat) (w : CommitWork) (s : State) : State :=
  match w.apps.find? fun a => a.fails s p with
  | some a =>
    let s := rput s (.kvp p) (rKvpPoolstatq a.pool) 62 62 1
    raiseEvent p (logEvent (srcPart p) .kvPoolBadentry a.pool s)
  | none => s

/-- The pages taken from one pool at the commit point: overfill, H, the watermark (R273, R275, R276). -/
def takePages (p q n : Nat) (s : State) : State :=
  let avail := poolAvail s p q
  let low := (rg s (.kvp p) (rKvpLowmarkq q)).field 31 0
  let s := if poolN s p q < avail then
      raiseEvent p (logEvent (srcPart p) .kvPoolOverfill q (rput s (.kvp p) (rKvpPoolstatq q) 63 63 1))
    else s
  let i := (poolCfg s p q).field 11 0
  let s := applyAdd ⟨0x400 + i / 64, i % 64⟩ n s
  let after := avail - n
  if after ≤ low then
    let s := rput s (.kvp p) (rKvpPoolstatq q) 61 61 1
    if low < avail then
      let s := logEvent (srcPart p) .kvPoolLow q s
      if (rg s (.kvp p) (rKvpLowmarkq q)).bit 32 then raiseEvent p s else s
    else s
  else rput s (.kvp p) (rKvpPoolstatq q) 61 61 0

/-- A buffer after the `size` bytes from `base` have been given another translation entry by a group: copies of the old one
are removed, pinned ones replaced by what is there now, each held once (R145, R264, R267). -/
def renewBuffer (s : State) (p base size : Nat) (b : List TEntry) : List TEntry :=
  (b.filter fun x => x.pinned && x.part == p && decide (x.va < base + size ∧ base < x.va + x.size)).foldr
    (init := b.filter fun x => !(x.part == p && decide (x.va < base + size ∧ base < x.va + x.size)))
    fun x m => { walkEntry s p x.va with pinNow := x.pinNow, pinNext := x.pinNext } |> replacePin m
where
  /-- A pin placed at its place in a buffer, once. -/
  replacePin (m : List TEntry) (e : TEntry) : List TEntry :=
    match m.find? fun x => x.part == e.part && x.va == e.va with
    | some o => m.map fun x => if x = o then { e with pinNow := e.pinNow || o.pinNow, pinNext := e.pinNext || o.pinNext } else x
    | none => e :: m

/-- What the entry that a group writes for an address maps: a page under a level-3 table, or the block or table of a level-2
entry, before the group's writes `excess`. -/
def writtenSpan (s : State) (p : Nat) (excess : List (Nat × Nat)) (va : Nat) : Nat × Nat :=
  match (walkTables s p excess va).l3 with
  | some (_, sz) => (va / (65536 * 2 ^ sz) * (65536 * 2 ^ sz), 65536 * 2 ^ sz)
  | none => (va / 536870912 * 536870912, 536870912)

/-- An entry written through a group: memory, the buffers of the partition's tiles, and the arrival buffer, which holds no
old entry either (R268). -/
def writeXlt (p h a e va : Nat) (s : State) : State :=
  let (base, size) := writtenSpan s p [] va
  let s := match inRange s p a with
    | some (k, x) => memWrite (some h) (.stack k) x (bytesOf 8 e) (ordinaryAccess (some p) k x 8 s)
    | none => s
  { s with tiles := s.tiles.map fun x => (x.1, { x.2 with tbuf := renewBuffer s p base size x.2.tbuf })
           arrivals := renewBuffer s p base size s.arrivals }

/-- The address that each translation write of a group serves, in the order of its writes. -/
def opVas (s : State) (g : Group) (w : CommitWork) : List Nat :=
  (g.ops.filterMap fun o => match o with | .twr va _ => some va | .kvapp _ _ _ => none) ++
    (w.apps.filterMap fun a => a.l3.map fun x =>
      s.mem.readNat (a.entry + 16) 8 + a.n / 256 * (65536 * 2 ^ x.2))

/-- Everything that takes effect at the commit point of a group that passed its checks (R138, Table KV-5), but for
the staged advances. -/
def commitEffects (p h : Nat) (g : Group) (w : CommitWork) (s : State) : State :=
  let excess := w.writes s p
  let lines := gather s p h excess g
  let pages := w.apps.map fun a => (a, a.page s p)
  let vas := opVas s g w
  let s := (excess.zip vas).foldl (init := s) fun s x => writeXlt p h x.1.1 x.1.2 x.2 s
  let s := lines.foldl (init := s) fun s (i, bs) =>
    (byteRuns bs).foldl (init := s) fun s r =>
      memWrite (some h) i r.1 r.2 (match i with | .stack k => ordinaryAccess (some p) k r.1 r.2.length s | _ => s)
  let s := pages.foldl (init := s) fun s (a, page) =>
    match inRange s p a.entry with
    | some (k, x) =>
      let s := ordinaryAccess (some p) k x 64 s
      let s := if a.l3.isSome then memWrite (some h) (.stack k) (x + 0x18) (bytesOf 8 page) s else s
      memWrite (some h) (.stack k) x (bytesOf 8 (a.n + 1)) s
    | none => s
  (List.range 8).foldl (init := s) fun s q => if w.need q = 0 then s else takePages p q (w.need q) s

/-- The latest cycle on which a staged advance reaches its counter. -/
def lastAdvance (s : State) (t : Nat) (g : Group) : Nat :=
  g.adds.foldl (init := s.cyc) fun m a =>
    match holderOf s a.c with
    | some x => max m (s.cyc + signalLatency s (.tile t) x)
    | none => m

/-- The translations that a commit uses (R138, R140, R266): those of the VA lines and lengths-table entries of a group that
was not aborted, but for pages that the group maps itself. -/
def commitWalks (t h p : Nat) (g : Group) (s : State) : State :=
  if g.aborted.isSome then s
  else
    let excess := opsWrites s p g.ops
    let vas := (g.lines.filter fun l => l.space == .va).map (·.addr) ++ g.kvapps.map (·.1)
    (vas.filter fun va => !ownMapping s p excess va).foldl (fun s va => (xlateUse h t g.ctx p va s).2) s

/-- Whether another group of the partition reaches its commit point on the same cycle as the group of physical tile `h`, and goes
first, for its tile's physical index is lower (R139, R273): one whose CGCOMMIT came on the same cycle (log entry 21). -/
def lowerCommits (s : State) (p h since : Nat) : Bool :=
  s.tiles.any fun e => decide (e.1 < h) && partOfCluster s (clusterOfPhys e.1) == some p &&
    match e.2.group with
    | some { phase := .committing _ c, .. } => c == since
    | _ => false

/-- COMMIT_POINT (R138, R139, R141): the translations are used, the checks are made; a failing group leaves everything as it was but for HELD marks
and reports; a passing one takes effect and issues its advances. -/
def execCommitPoint (t : Fin 512) (s : State) : Host.Outcome State Fault Refusal :=
  match physOf s t.val, partOfTile s t.val with
  | some h, some p =>
    match (s.tile h).group with
    | some g =>
      match g.phase with
      | .committing idx since =>
        if commitsFrozen s || lowerCommits s p h since then .next s
        else
          match commitChecks s p h g with
          | .error (c, w) =>
            let s := commitWalks t.val h p g s
            let s := if g.aborted.isSome then s else (commitReads s p h g).foldl (fun s x => noteCodeword p x s) s
            let s := if c = .kvPoolEmpty then failEmpty p h w s
              else if c = .outOfRange then failBadEntry p w s
              else match w.bad with
                | some (i, a) => reportUncorrected i a (some p) s
                | none => s
            .next (setGroup h { g with phase := .landed idx s.cyc c } s)
          | .ok w =>
            let s := commitWalks t.val h p g s
            let s := (commitReads s p h g).foldl (fun s x => noteCodeword p x s) s
            let s := commitEffects p h g w s
            let s := setGroup h { g with phase := .landed idx (lastAdvance s t.val g) .ok } s
            .next (g.adds.foldl (init := s) fun s a =>
              noteIssued p t.val g.ctx (cntId s a.c) a.amount (issueAdd (.tile t.val) a.c a.amount s))
      | _ => .next s
    | none => .next s
  | _, _ => .next s

/-- COMMIT_DONE (R138): when every advance has reached its counter, 1 is added to the CGCOMMIT counter and CGSTAT
shows the outcome. -/
def execCommitDone (t : Fin 512) (s : State) : Host.Outcome State Fault Refusal :=
  match physOf s t.val with
  | some h =>
    match (s.tile h).group with
    | some g =>
      match g.phase with
      | .landed idx due c =>
        if c = .ok ∧ g.adds.any (fun a => s.adds.any fun x => x.c == a.c && decide (x.due ≤ due)) then .next s
        else
          let s := s.upTo due
          let s := s.updTile h fun x => { x with group := none }
          let s := setCtxAt s t.val g.ctx { ctxAt s t.val g.ctx with cgCode := c }
          let s := match partOfTile s t.val with
            | some p => noteIssued p t.val g.ctx (cntId s (ownCnt t.val idx)) 1 s
            | none => s
          .next (applyAdd (ownCnt t.val idx) 1 s)
      | _ => .next s
    | none => .next s
  | none => .next s

end Sys2Proof.Machine
end

