-- ==== Sys2Proof/Machine/CounterOps.lean ====
section
/-! DEFINITION. Counter instructions (R130 to R133, R161, R164, R165, R170, R171, R173). -/
namespace Sys2Proof.Machine

/-- A counter operand (R130, R161): device, block and index; `none` where the layout is broken. -/
def counterOperand (u : Agent) (s : State) (v : Nat) : Option (Nat × Nat × Nat) :=
  match u with
  | .grotto _ => if v < 2 ^ 20 then some (devId s, bitsOf v 19 8, bitsOf v 7 0) else none
  | .spur _ _ =>
    if bitsOf v 62 34 ≠ 0 ∨ (v.testBit 63 = false ∧ bitsOf v 33 20 ≠ 0) then none
    else some (if v.testBit 63 then bitsOf v 33 20 else devId s, bitsOf v 19 8, bitsOf v 7 0)

/-- Counter `i` of the grotto core with AGENT `k` (Table GRT-1). -/
def grottoCnt (k i : Nat) : Cnt := ⟨0x200 + k / 128 * 4 + k % 128 / 32, if i < 8 then k % 32 * 8 + i else 256⟩

/-- The counter that a block and index name for a unit: block 0xFFF is its own (Table SYNC-1). -/
def ownBlock (u : Agent) (block index : Nat) : Cnt :=
  if block = 0xFFF then
    match u with
    | .spur t _ => ⟨t, index⟩
    | .grotto k => grottoCnt k index
  else ⟨block, index⟩

/-- The signaller that a unit is. -/
def unitSignaller : Agent → Signaller
  | .spur t _ => .tile t
  | .grotto k => .grotto k

/-- The open group that a unit's staged operations go to. -/
def stagingGroup (u : Agent) (s : State) : Option Group :=
  match u with
  | .spur t n => openGroup s t n
  | .grotto _ => none

/-- The checks of an add to a counter of this device (R164, R165). -/
def addChecks (u : Agent) (s : State) (c : Cnt) : List (Bool × Code) :=
  match holderOf s c with
  | none => [(true, .outOfRange)]
  | some x => [((holderPart s x).isNone || holderPart s x != unitPart s u, .notOwner)]

/-- An add to a counter of this device: staged in an open group, else issued (R133, R135, R177, R182). -/
def addLocal (u : Agent) (c : Cnt) (n : Nat) (s : State) : Issue :=
  match firstOf (addChecks u s c) with
  | some e => .halt e
  | none =>
    match u, stagingGroup u s with
    | .spur t _, some g => .go (setGroup (tileAt s t) (stageAdd g c n) s)
    | _, _ =>
      match unitPart s u with
      | some p => .go (noteIssued p (planAgent u) (planUnit u) (cntId s c) n (issueAdd (unitSignaller u) c n s))
      | none => .go (issueAdd (unitSignaller u) c n s)

/-- The header of a remote CADD (R298): managed class, no data units. -/
def caddHeader (s : State) (t n p dev block index amount : Nat) : FabHeader :=
  { srcDev := BitVec.ofNat 14 (devId s), srcPart := Fin.ofNat 32 p, srcTile := t, srcUnit := n
    dstDev := BitVec.ofNat 14 dev, dpart := 0, dsp := 0, dst := 0, len := none, managed := true, vc1 := false
    signal := some (block * 256 + index, amount), stampStep := curStep s p % 65536, start := stepCycles s p, latency := 0, cycles := 1 }

/-- CADD (R133, R161): adds g[rb] to the counter that g[ra] names. -/
def execCadd (u : Agent) (f : FmtQ) (s : State) : Host.Outcome State Fault Refusal :=
  issue (.cadd u f) u s [(f.rd != 0 || f.rc != 0, .reservedBitSet), (badG u f.ra || badG u f.rb, .illegalValue)] fun s =>
    match counterOperand u s (getG u s f.ra) with
    | none => .halt .illegalValue
    | some (dev, block, index) =>
      if dev = devId s then addLocal u (ownBlock u block index) (getG u s f.rb) s
      else if (stagingGroup u s).isSome then .halt .outOfRange
      else
        match u, unitPart s u with
        | .spur t n, some p =>
          .go (noteIssued p t n (dev * 2 ^ 20 + block * 256 + index) (getG u s f.rb)
            (forward none (.xfer (caddHeader s t n p dev block index (getG u s f.rb)) []) s))
        | _, _ => .go s

/-- Whether a unit may wait on a counter (R161, R171). -/
def mayWait (u : Agent) (s : State) (c : Cnt) : Bool :=
  match holderOf s c, u with
  | some (.tile _ b _), .spur t _ => b == t.val
  | some (.group g _), .spur t _ => (partOfGroup s g).isSome && partOfGroup s g == partOfTile s t
  | some (.grotto k _), .grotto m => k == m.val
  | _, _ => false

/-- A counter wait (R79, R170): passes at once where the target is reached, else the unit enters WAIT. -/
def waitOn (c : Cnt) (target : Nat) (s : State) : Issue :=
  match holderOf s c with
  | some x => if target ≤ holderValue s x then .go s else .wait (.counter c target none none) s
  | none => .halt .outOfRange

/-- CWAIT (R131, R161, R164, R171). -/
def execCwait (u : Agent) (f : FmtQ) (s : State) : Host.Outcome State Fault Refusal :=
  issue (.cwait u f) u s [(f.rd != 0, .reservedBitSet), (badG u f.ra || badG u f.rb || badG u f.rc, .illegalValue)] fun s =>
    match counterOperand u s (getG u s f.ra) with
    | none => .halt .illegalValue
    | some (dev, block, index) =>
      let target := if isSpur u then getG u s f.rb + getG u s f.rc else getG u s f.rb + 2 ^ 32 * getG u s f.rc
      match firstOf [(decide (2 ^ 64 ≤ target), .waitUnreachable), (dev != devId s, .outOfRange),
          (!isSpur u && block != 0xFFF, .outOfRange), (!mayWait u s (ownBlock u block index), .outOfRange)] with
      | some e => .halt e
      | none => waitOn (ownBlock u block index) target s

/-- Own-block counters of a unit (R132). -/
def ownCount (u : Agent) : Nat := if isSpur u then 128 else 8

/-- CWAITL (R131). -/
def execCwaitl (u : Agent) (f : FmtI) (s : State) : Host.Outcome State Fault Refusal :=
  let index := f.imm.toNat % 128
  issue (.cwaitl u f) u s [(f.rd != 0 || decide (128 ≤ f.imm.toNat), .reservedBitSet), (badG u f.ra, .illegalValue)] fun s =>
    if ownCount u ≤ index then .halt .outOfRange else waitOn (ownBlock u 0xFFF index) (getG u s f.ra) s

/-- A read of own-block counter g[ra] into g[rd] (R132, R173). -/
def readOwn (u : Agent) (f : FmtQ) (s : State) (val : Holder → Nat) : Issue :=
  let i := getG u s f.ra
  if ownCount u ≤ i then .halt .outOfRange
  else
    match holderOf s (ownBlock u 0xFFF i) with
    | some x => .go (setG u f.rd (val x) s)
    | none => .halt .outOfRange

/-- CRD (R132, R161): the counter's value; bits 31:0 in a grotto core. -/
def execCrd (u : Agent) (f : FmtQ) (s : State) : Host.Outcome State Fault Refusal :=
  issue (.crd u f) u s [(f.rb != 0 || f.rc != 0, .reservedBitSet), (badG u f.rd || badG u f.ra, .illegalValue)] fun s =>
    readOwn u f s fun x => holderValue s x % 2 ^ gWidth u

/-- CRDF (R132): the saturated flag. -/
def execCrdf (u : Agent) (f : FmtQ) (s : State) : Host.Outcome State Fault Refusal :=
  issue (.crdf u f) u s [(f.rb != 0 || f.rc != 0, .reservedBitSet), (badG u f.rd || badG u f.ra, .illegalValue)] fun s =>
    readOwn u f s fun x => if holderSat s x then 1 else 0

/-- CRDH (R161, Table ALR-9): bits 63:32, in grotto cores only. -/
def execCrdh (u : Agent) (f : FmtQ) (s : State) : Host.Outcome State Fault Refusal :=
  issue (.crdh u f) u s [(isSpur u, .illegalOpcode), (f.rb != 0 || f.rc != 0, .reservedBitSet),
      (badG u f.rd || badG u f.ra, .illegalValue)] fun s =>
    readOwn u f s fun x => holderValue s x / 2 ^ 32

/-- CSIGL (R132): adds IMM 15:8 to own-block counter IMM 6:0. -/
def execCsigl (u : Agent) (f : FmtI) (s : State) : Host.Outcome State Fault Refusal :=
  let n := bitsOf f.imm.toNat 15 8
  issue (.csigl u f) u s [(f.rd != 0 || f.ra != 0 || f.imm.getLsbD 7, .reservedBitSet), (n == 0, .illegalValue)] fun s =>
    addLocal u (ownBlock u 0xFFF (f.imm.toNat % 128)) n s

end Sys2Proof.Machine
end

