-- ==== Sys2Proof/Machine/LoadStore.lean ====
section
/-! DEFINITION. Loads and stores (R95 to R97, R121, R122, R160, R242, R258). -/
namespace Sys2Proof.Machine

/-- The bytes that a context reads: a group's staged bytes where its own open group has staged them (R135). -/
def overlay (g : Option Group) (sp : GSpace) (a : Nat) (bs : List Byte) : List Byte :=
  match g with
  | none => bs
  | some g =>
    bs.zipIdx.map fun (b, i) =>
      match g.lines.find? fun l => l.space == sp && l.addr == (a + i) / 64 * 64 with
      | some l => SMap.get b l.bytes (a + i)
      | none => b

/-- The code of an access that passes the end of its space, or is misaligned (R95, R96). -/
def accessChecks (a len space : Nat) : List (Bool × Code) :=
  [(decide (space < a + len), .outOfRange), (a % len != 0, .illegalValue)]

/-- A read of a protected memory by a context or core, given to `k` (R84, R226, R227). -/
def loadFrom (u : Agent) (i : MemId) (a len : Nat) (k : List Byte → State → State) (g : Option Group) (sp : GSpace)
    (base : Nat) (s : State) : Issue :=
  match memRead i a len (unitPart s u) s with
  | (.data bs, s') => .go (k (overlay g sp base bs) s')
  | (.uncorrected _, s') => .haltIn .eccUncorrected s'

/-- A load from the accumulator banks (R44, R67, Table SPR-4). -/
def loadAcc (t : Nat) (a len : Nat) (k : List Byte → State → State) (s : State) : Issue :=
  let h := tileAt s t
  let x := s.tile h
  match firstOf (accessChecks a len 0x80000) with
  | some c => .halt c
  | none =>
    let b := a / 0x20000
    if bankBusy x b s.cyc then .hold (.bank b none) s
    else if x.poison.contains (a / 0x200) then .halt .mxCheckMismatch
    else .go (k ((List.range (len / 4)).flatMap fun i => bytesOf 4 (SMap.get 0 x.acc (a / 4 + i)).toNat) s)

/-- A load of `len` bytes at `a` in space `sp` of a spur core. -/
def loadSpur (t n : Nat) (u : Agent) (sp a len : Nat) (k : List Byte → State → State) (s : State) : Issue :=
  let h := tileAt s t
  if sp = 0 then
    match firstOf (accessChecks a len 0x400000) with
    | some c => .halt c
    | none => loadFrom u (.store h) a len k (openGroup s t n) .ts a s
  else if sp = 1 then
    match firstOf (accessChecks a len 0x10000000) with
    | some c => .halt c
    | none => loadFrom u (.slice h) a len k (openGroup s t n) .sl a s
  else loadAcc t a len k s

/-- Whether BK offset `x` of a core lies in a range of the partition that owns the core (R242). -/
def bkAllowed (s : State) (k x : Nat) : Bool :=
  match partOfGrotto s k with
  | none => false
  | some p =>
    (List.range 64).any fun r =>
      match rangeEntry s (4 + k / 128) r with
      | some (q, base, size) => q == p && decide (base ≤ x / 0x80000 ∧ x / 0x80000 < base + size)
      | none => false

/-- The stack byte behind BK offset `x` of core `k` (R240, R241). -/
def bkAddr (k x : Nat) : Nat := stackBase (4 + k / 128) + bankToInterleaved (k % 128) x

/-- The checks of a grotto access after its fields: end of space, alignment, and for BK the core's ranges. -/
def grottoChecks (s : State) (k sp a len : Nat) : List (Bool × Code) :=
  accessChecks a len (if sp = 0 then 0x10000 else 0x10000000) ++ [(sp == 1 && !bkAllowed s k a, .outOfRange)]

/-- A load of a grotto core. A BK access waits at its boundary while the bank group runs a refresh operation (R252). -/
def loadGrotto (k sp a len : Nat) (u : Agent) (f : List Byte → State → State) (s : State) : Issue :=
  match firstOf (grottoChecks s k sp a len) with
  | some c => .halt c
  | none =>
    if sp = 0 then loadFrom u (.ls k) a len f none .ts a s
    else if (s.grotto k).running ≠ 0 then .skip s
    else loadFrom u (.stack (4 + k / 128)) (bkAddr k a) len f none .va a (noteBk k s)

/-- A load by either kind of unit. -/
def loadUnit (u : Agent) (sp a len : Nat) (k : List Byte → State → State) (s : State) : Issue :=
  match u with
  | .spur t n => loadSpur t n u sp a len k s
  | .grotto c => loadGrotto c sp a len u k s

/-- Whether bytes lie in a unit's code range (R122, R160). -/
def inCode (img : Option Img) (a len : Nat) : Bool :=
  match img with
  | some i => decide (a < i.loadOff + i.codeSize ∧ i.loadOff < a + len)
  | none => false

/-- A store staged in the open group `g` (R135). -/
def stageIn (t : Nat) (g : Group) (sp : GSpace) (a : Nat) (bs : List (Nat × Byte)) (s : State) : State :=
  setGroup (tileAt s t) (stageStore g sp (a / 64 * 64) bs none []) s

/-- A store of masked bytes at `a` in the VA space (R122, R220). -/
def storeVa (t n : Nat) (g : Group) (a : Nat) (bs : List (Nat × Byte)) (s : State) : Issue :=
  let h := tileAt s t
  match partOfTile s t with
  | none => .go s
  | some p =>
    let line := a / 64 * 64
    if g.aborted.isSome || g.lines.any (fun l => l.space == .va && l.addr == line) then
      .go (setGroup h (stageStore g .va line bs none []) s)
    else
      match xlateStage h t n p line s with
      | .walk s' => .skip s'
      | .ready phys s' =>
        .go (setGroup h (stageStore g .va line bs (registered s' p g line phys) (stagedUses s' p g line)) s')

/-- A store of `bs` (address, byte) within the `len` bytes at `a`, by a spur core. -/
def storeSpur (t n : Nat) (sp a len : Nat) (bs : List (Nat × Byte)) (s : State) : Issue :=
  let h := tileAt s t
  let g := openGroup s t n
  if sp = 0 then
    match firstOf (accessChecks a len 0x400000 ++ [(bs.any (fun b => inCode (s.tile h).img b.1 1), .illegalValue)]) with
    | some c => .halt c
    | none =>
      match g with
      | some g => .go (stageIn t g .ts a bs s)
      | none => .go (memWriteMap none (.store h) bs s)
  else if sp = 1 then
    match firstOf (accessChecks a len 0x10000000) with
    | some c => .halt c
    | none =>
      match g with
      | some g => .go (stageIn t g .sl a bs s)
      | none => .go (memWriteMap none (.slice h) bs s)
  else
    match g with
    | none => .halt .wrongState
    | some g =>
      match firstOf (accessChecks a len (2 ^ 52)) with
      | some c => .halt c
      | none => storeVa t n g a bs s

/-- A store by a grotto core; a BK access waits as a load's does. -/
def storeGrotto (k sp a len : Nat) (bs : List (Nat × Byte)) (s : State) : Issue :=
  match firstOf (grottoChecks s k sp a len ++ [(sp == 0 && bs.any (fun b => inCode (s.grotto k).img b.1 1), .illegalValue)]) with
  | some c => .halt c
  | none =>
    if sp = 0 then .go (memWriteMap none (.ls k) bs s)
    else if (s.grotto k).running ≠ 0 then .skip s
    else .go (memWrite none (.stack (4 + k / 128)) (bkAddr k a) (bs.map (·.2)) (noteBk k s))

/-- A store by either kind of unit. -/
def storeUnit (u : Agent) (sp a len : Nat) (bs : List (Nat × Byte)) (s : State) : Issue :=
  match u with
  | .spur t n => storeSpur t n sp a len bs s
  | .grotto k => storeGrotto k sp a len bs s

/-- Bytes of a scalar access (R121). -/
def scalarSize (f : FmtM) : Nat := 2 ^ f.sz.toNat
/-- Address of a scalar access: g[ra] + sign-extended OFF × size, wrapping at the unit's width (the model's
choice, log entry 86). -/
def scalarAddr (u : Agent) (f : FmtM) (s : State) : Nat := pat u ((getG u s f.ra : Int) + f.off.toInt * scalarSize f)
/-- Address of a vector access: g[ra] + sign-extended OFF × the register's bytes, wrapping at the unit's width (R121, R160;
the model's choice, log entry 86). -/
def vectorAddr (u : Agent) (f : FmtMV) (s : State) : Nat := pat u ((getG u s f.ra : Int) + f.off.toInt * vBytes u)

/-- Field values that a scalar load does not accept (R122, R160). -/
def badScalarLoad (u : Agent) (f : FmtM) : Bool :=
  match u with
  | .spur _ _ => f.sp == 3 || (f.sp == 2 && decide (f.sz.toNat < 2))
  | .grotto _ => f.sp != 0 || f.sz == 3 || badG u f.rt || badG u f.ra
/-- Field values that a scalar store does not accept: no store reaches AC (Table SPR-4). -/
def badScalarStore (u : Agent) (f : FmtM) : Bool :=
  match u with
  | .spur _ _ => f.sp == 2
  | .grotto _ => f.sp != 0 || f.sz == 3 || badG u f.rt || badG u f.ra
/-- Field values that a vector load does not accept. -/
def badVectorLoad (u : Agent) (f : FmtMV) : Bool :=
  match u with
  | .spur _ _ => f.sp == 3
  | .grotto _ => decide (1 < f.sp.toNat) || badV u f.vt || badG u f.ra
/-- Field values that a vector store does not accept. -/
def badVectorStore (u : Agent) (f : FmtMV) : Bool :=
  match u with
  | .spur _ _ => f.sp == 2
  | .grotto _ => decide (1 < f.sp.toNat) || badV u f.vt || badG u f.ra || f.p != 0

/-- A VA store outside an open group of the context is not allowed in its state (R118 step 4, R122). -/
def vaOutsideGroup (u : Agent) (sp : Nat) (s : State) : Bool :=
  match u with
  | .spur t n => sp == 3 && (openGroup s t n).isNone
  | .grotto _ => false

/-- LD: the bytes read, zero-extended (Table ALR-5). -/
def execLd (u : Agent) (f : FmtM) (s : State) : Host.Outcome State Fault Refusal :=
  issue (.ld u f) u s [(badScalarLoad u f, .illegalValue)] fun s =>
    loadUnit u f.sp.toNat (scalarAddr u f s) (scalarSize f) (fun bs s => setG u f.rt (natOfBytes bs) s) s

/-- LDS: the bytes read, sign-extended. -/
def execLds (u : Agent) (f : FmtM) (s : State) : Host.Outcome State Fault Refusal :=
  issue (.lds u f) u s [(badScalarLoad u f, .illegalValue)] fun s =>
    loadUnit u f.sp.toNat (scalarAddr u f s) (scalarSize f)
      (fun bs s => setG u f.rt (pat u (signedOf (8 * scalarSize f) (natOfBytes bs))) s) s

/-- The bytes of a store with their addresses. -/
def addressed (a : Nat) (bs : List Byte) : List (Nat × Byte) := bs.zipIdx.map fun (b, i) => (a + i, b)

/-- ST: the low bytes of g[rt]. -/
def execSt (u : Agent) (f : FmtM) (s : State) : Host.Outcome State Fault Refusal :=
  issue (.st u f) u s [(badScalarStore u f, .illegalValue), (vaOutsideGroup u f.sp.toNat s, .wrongState)] fun s =>
    let a := scalarAddr u f s
    storeUnit u f.sp.toNat a (scalarSize f) (addressed a (bytesOf (scalarSize f) (getG u s f.rt))) s

/-- VLD: a whole register; p must be 0. -/
def execVld (u : Agent) (f : FmtMV) (s : State) : Host.Outcome State Fault Refusal :=
  issue (.vld u f) u s [(f.p != 0, .reservedBitSet), (badVectorLoad u f, .illegalValue)] fun s =>
    loadUnit u f.sp.toNat (vectorAddr u f s) (vBytes u) (fun bs s => setV u f.vt (natOfBytes bs) s) s

/-- VST: byte i of the register where bit i of p[p] is 1. -/
def execVst (u : Agent) (f : FmtMV) (s : State) : Host.Outcome State Fault Refusal :=
  issue (.vst u f) u s [(badVectorStore u f, .illegalValue), (vaOutsideGroup u f.sp.toNat s, .wrongState)] fun s =>
    let a := vectorAddr u f s
    let bs := (bytesOf (vBytes u) (getV u s f.vt)).zipIdx.filterMap fun (b, i) =>
      if !isSpur u || (getP u s f.p.toNat).bit i then some (a + i, b) else none
    storeUnit u f.sp.toNat a (vBytes u) bs s

end Sys2Proof.Machine
end

