-- ==== Sys2Proof/Machine/GroupOps.lean ====
section
/-! DEFINITION. Commit-group and translation instructions (R134, R138, R142 to R146). -/
namespace Sys2Proof.Machine

/-- A group instruction of a spur context; a grotto core has none (Table ALR-2). -/
def groupIssue (i : Instr) (u : Agent) (s : State) (reserved : Bool) (body : Nat → Nat → State → Issue) : Host.Outcome State Fault Refusal :=
  issue i u s [(!isSpur u, .illegalOpcode), (reserved, .reservedBitSet)] fun s =>
    match u with
    | .spur t n => body t n s
    | .grotto _ => .halt .illegalOpcode

/-- CGBEGIN (R134). -/
def execCgbegin (u : Agent) (f : FmtQ) (s : State) : Host.Outcome State Fault Refusal :=
  groupIssue (.cgbegin u f) u s (f.ra != 0 || f.rb != 0 || f.rc != 0) fun t n s =>
    let h := tileAt s t
    if (s.tile h).group.isSome || clusterPaused s (clusterOf t) then .go (setG u f.rd (Code.wrongState).toNat s)
    else .go (setG u f.rd (Code.ok).toNat (setGroup h { ctx := n } s))

/-- CGCOMMIT (R132, R138, R142): the group of the context starts to commit. -/
def execCgcommit (u : Agent) (f : FmtQ) (s : State) : Host.Outcome State Fault Refusal :=
  groupIssue (.cgcommit u f) u s (f.rd != 0 || f.rb != 0 || f.rc != 0) fun t n s =>
    match openGroup s t n with
    | none => .halt .wrongState
    | some g =>
      let i := getG u s f.ra
      if 127 < i then .halt .outOfRange else .go (setGroup (tileAt s t) { g with phase := .committing i s.cyc } s)

/-- CGABORT (R142). -/
def execCgabort (u : Agent) (f : FmtQ) (s : State) : Host.Outcome State Fault Refusal :=
  groupIssue (.cgabort u f) u s (f.rd != 0 || f.ra != 0 || f.rb != 0 || f.rc != 0) fun t n s =>
    match openGroup s t n with
    | none => .go s
    | some _ =>
      let s := s.updTile (tileAt s t) fun x => { x with group := none }
      .go (setCtxAt s t n { ctxAt s t n with cgCode := .cgAbortSoftware })

/-- The value of CGSTAT (Table ALR-12). -/
def cgStatus (s : State) (t n : Nat) : Nat :=
  let code := (ctxAt s t n).cgCode.toNat
  match (s.tile (tileAt s t)).group with
  | some g =>
    if g.ctx ≠ n then code
    else
      match g.phase with
      | .filling => code + 2 ^ 16 + (if g.aborted.isSome then 2 ^ 18 else 0)
      | _ => code + 2 ^ 17
  | none => code

/-- CGSTAT (R142). -/
def execCgstat (u : Agent) (f : FmtQ) (s : State) : Host.Outcome State Fault Refusal :=
  groupIssue (.cgstat u f) u s (f.ra != 0 || f.rb != 0 || f.rc != 0) fun t n s => .go (setG u f.rd (cgStatus s t n) s)

/-- TWR (R145): stages a translation write. The entries that its path uses are noted (R221). -/
def execTwr (u : Agent) (f : FmtQ) (s : State) : Host.Outcome State Fault Refusal :=
  groupIssue (.twr u f) u s (f.rd != 0 || f.rc != 0) fun t n s =>
    match openGroup s t n with
    | none => .halt .wrongState
    | some g =>
      let va := getG u s f.ra
      if 2 ^ 52 ≤ va then .halt .outOfRange
      else if va % 65536 ≠ 0 then .halt .illegalValue
      else
        let used := match partOfTile s t with
          | some p => stagedUses s p g va
          | none => []
        .go (setGroup (tileAt s t) (stageTwr g va (getG u s f.rb) used) s)

/-- KVAPP (R146, R220): stages an append; its lengths-table line is translated at staging. An address
that is no multiple of 64 is misaligned (R84, R277, log entry 28). -/
def execKvapp (u : Agent) (f : FmtQ) (s : State) : Host.Outcome State Fault Refusal :=
  groupIssue (.kvapp u f) u s (f.rd != 0 || f.rc != 0) fun t n s =>
    match openGroup s t n, partOfTile s t with
    | none, _ => .halt .wrongState
    | some _, none => .halt .wrongState
    | some g, some p =>
      let h := tileAt s t
      let va := getG u s f.ra
      let m := getG u s f.rb
      if 2 ^ 52 ≤ va then .halt .outOfRange
      else if va % 64 ≠ 0 then .halt .illegalValue
      else if g.aborted.isSome then .go s
      else
        match xlateStage h t n p va s with
        | .walk s' => .skip s'
        | .ready phys s' =>
          .go (setGroup h (stageKvapp g va m (registered s' p g va phys)
            (stagedUses s' p g va ++ entryPlaces s' p ((opsWrites s' p (g.ops ++ [.kvapp va m none])).map (·.1)))) s')

/-! TPIN. -/

/-- The step that follows a partition's current one (R144). -/
def nextStep (x : Part) (step : Nat) : Option StepRec :=
  match x.trv with
  | none => none
  | some t => if step + 1 < t.steps.length then t.steps[step + 1]? else if t.loop then t.steps[t.loopStep]? else none

/-- The translations that a pin-list entry names, from `va`, `n` of them (R267): where each one starts. -/
def pinChain (s : State) (p size : Nat) : Nat → Nat → List Nat
  | 0, _ => []
  | n + 1, va =>
    let w := walkTables s p [] va
    let z := match w.out, w.l3 with
      | some (_, z, _), _ => z
      | none, some (_, sz) => 65536 * 2 ^ sz
      | none, none => if size = 1 then 536870912 else 65536
    va :: pinChain s p size n (va / z * z + z)

/-- The pins that a step gives logical tile `t`. -/
def pinsOf (s : State) (p t : Nat) (r : StepRec) : List Nat :=
  (r.pins.filter fun x => decide (x.first ≤ t ∧ t < x.first + x.count)).flatMap fun x => pinChain s p x.size x.ntrans x.va

/-- A translation already held becomes pinned for the next step; one that is not is walked. -/
def pinOne (h t p : Nat) (va : Nat) (s : State) : State :=
  match tbufFind (s.tile h).tbuf p va with
  | some e => s.updTile h fun x => { x with tbuf := x.tbuf.map fun y => if y = e then { y with pinNext := true } else y }
  | none => { s with walks := s.walks ++ [⟨p, va, .tpin t true, s.cyc, true⟩] }

/-- Whether pins of the next step (`next`), or of the running one, are still walked for logical tile `t`. -/
def pinWalks (s : State) (t : Nat) (next : Bool) : Bool := s.walks.any fun w => w.why == .tpin t next

/-- The adds of a TPIN whose translations are held: two cycles later (R144). -/
def pinAdds (t : Nat) (cs : List Nat) (s : State) : State :=
  cs.foldl (fun s i => issueAt (ownCnt t i) 1 (s.cyc + 2) s) s

/-- The effect of a TPIN with the counters `cs` (none or one). -/
def tpinEffect (t : Nat) (cs : List Nat) (s : State) : State :=
  let h := tileAt s t
  match (s.tile h).tpin, partOfTile s t with
  | some x, _ =>
    if x.done then pinAdds t cs s
    else s.updTile h fun y => { y with tpin := some { x with counters := x.counters ++ cs } }
  | none, none => pinAdds t cs s
  | none, some p =>
    let pins := match nextStep (s.part p) (curStep s p) with
      | some r => pinsOf s p t r
      | none => []
    let s := pins.foldl (fun s va => pinOne h t p va s) s
    if pinWalks s t true then s.updTile h fun y => { y with tpin := some ⟨cs, false⟩ }
    else pinAdds t cs (s.updTile h fun y => { y with tpin := some ⟨[], true⟩ })

/-- TPIN (R144): ra 0 names no counter. -/
def execTpin (u : Agent) (f : FmtQ) (s : State) : Host.Outcome State Fault Refusal :=
  groupIssue (.tpin u f) u s (f.rd != 0 || f.rb != 0 || f.rc != 0) fun t _ s =>
    if f.ra = 0 then .go (tpinEffect t [] s)
    else
      let i := getG u s f.ra
      if 127 < i then .halt .outOfRange else .go (tpinEffect t [i] s)

/-- TPIN_DONE (R144): the last translation of a TPIN is held, and its counters are added to. -/
def execTpinDone (t : Fin 512) (s : State) : Host.Outcome State Fault Refusal :=
  match physOf s t with
  | none => .next s
  | some h =>
    let late := (s.tile h).tpinLate
    let s := if late ≠ [] ∧ !pinWalks s t false then
        pinAdds t late (s.updTile h fun y => { y with tpinLate := [] })
      else s
    match (s.tile h).tpin with
    | some x =>
      if x.done || pinWalks s t true then .next s
      else .next (pinAdds t x.counters (s.updTile h fun y => { y with tpin := some ⟨[], true⟩ }))
    | none => .next s

end Sys2Proof.Machine
end

