-- ==== Sys2Proof/Machine/Queues.lean ====
section
/-! DEFINITION. Tile queues: pushes, halts, flushes, completion and signals, and the units that wait on them
(R82, R83, R88 to R94, R147). -/
namespace Sys2Proof.Machine

/-- Counter-plan UNIT of a queue (Table SPR-11). -/
def queueUnit (q : Nat) : Nat := 8 + q
/-- Queue `q` of logical tile `t`. -/
def queueAt (s : State) (t q : Nat) : Queue := (s.tile (tileAt s t)).qOf q
/-- The state with a queue replaced. -/
def setQueueAt (t q : Nat) (x : Queue) (s : State) : State := s.updTile (tileAt s t) fun y => y.setQ q x
/-- A full queue (Table SPR-3). -/
def Queue.full (x : Queue) : Bool := decide (32 ≤ x.held.length)
/-- Commands started and not completed. -/
def Queue.inFlight (x : Queue) : Nat := x.flights.countP fun f => !f.done

/-- A slot of queue `q` frees: contexts that wait for one will retry (R83). -/
def slotFreed (t q : Nat) (s : State) : State :=
  s.updTile (tileAt s t) fun y =>
    { y with ctx := y.ctx.map fun e => (e.1,
        match e.2.wait with
        | .slot r none => if r = q then { e.2 with wait := .slot r (some s.cyc) } else e.2
        | _ => e.2) }

/-- Contexts that wait for a slot of a queue that halts while full halt too (R89). -/
def haltWaiters (t q : Nat) (s : State) : State :=
  if (queueAt s t q).full then
    (List.range 8).foldl (init := s) fun s n =>
      match (ctxAt s t n).wait with
      | .slot r _ => if r = q ∧ (ctxAt s t n).st = .wait then haltCtx t n .wrongState s else s
      | _ => s
  else s

/-- A queue halts with a code (R93). -/
def haltQueue (t q : Nat) (c : Code) (s : State) : State :=
  let h := tileAt s t
  let s := setQueueAt t q { queueAt s t q with st := .halted, last := c, headReady := false, headMet := none, wake := none } s
  let s := logEvent (srcTile h) c (t + 2 ^ 12 * queueUnit q) s
  let s := if q = 0 then rput s (.tile h) rTileMxStatus 63 48 c.toNat else s
  let s := if (rg s (.tile h) rTileQCtrl).bit (4 + q) then raiseFaultOf (partOfTile s t) s else s
  haltWaiters t q s

/-- The end of a flush: a queue with nothing in flight returns to RUN (R94). -/
def Queue.settled (x : Queue) : Queue :=
  if x.flushing && x.inFlight == 0 then { x with flushing := false, st := .run } else x

/-- A flush (R94): what has not started is discarded; the queue returns to RUN once nothing is in flight. -/
def flushQueue (t q : Nat) (s : State) : State :=
  let x := queueAt s t q
  let st := if x.st = .halted then .halted else .run
  slotFreed t q (setQueueAt t q (Queue.settled
    { x with held := [], headReady := false, headMet := none, wake := none, last := 0, st := st, flushing := true }) s)

/-- Completed commands at the front that have no signal to fire leave (R92). -/
def dropSilent : List Flight → List Flight
  | [] => []
  | f :: r => if f.done && (f.failed || !f.entry.clause.getLsbD 85) then dropSilent r else f :: r

/-- The `i`-th command in flight completes. -/
def completeFlight (t q i : Nat) (s : State) : State :=
  let x := queueAt s t q
  match x.flights[i]? with
  | some f =>
    setQueueAt t q (Queue.settled { x with flights := dropSilent (x.flights.set i { f with done := true }) }) s
  | none => s

/-- The `i`-th command in flight fails in its run (R93): it and those behind it do not signal, and the queue
halts. -/
def failFlight (t q i : Nat) (c : Code) (s : State) : State :=
  let x := queueAt s t q
  match x.flights[i]? with
  | some f =>
    let later := (x.flights.drop (i + 1)).map fun g => { g with failed := true }
    let fs := x.flights.take i ++ { f with done := true, failed := true } :: later
    haltQueue t q c (setQueueAt t q (Queue.settled { x with flights := dropSilent fs }) s)
  | none => s

/-- TILE_Q_STATEq as it reads. -/
def queueWord (s : State) (t : Nat) (x : Queue) : Nat :=
  let st := match x.st with | .run => 0 | .stalled => 1 | .halted => 2
  let wait := match x.st, x.held with
    | .stalled, e :: _ => (match e.waitCnt t with | some (c, _) => cntId s c | none => 0)
    | _, _ => 0
  x.last.toNat * 2 ^ 48 + x.held.length * 2 ^ 42 + st * 2 ^ 40 + min 7 x.inFlight * 2 ^ 37 + wait

/-! Instructions. -/

/-- The 32 bytes of v[rb] as a queue entry (R148). -/
def entryOf (u : Agent) (s : State) (rb : BitVec 5) (n : Nat) : QEntry :=
  let v := getV u s rb
  ⟨BitVec.ofNat 128 v, BitVec.ofNat 128 (v >>> 128), n⟩

/-- The entry put at the tail; it can become the head from the next cycle on (R88). -/
def pushEntry (t q : Nat) (e : QEntry) (s : State) : State :=
  let x := queueAt s t q
  let free := if x.held = [] then max x.headFree (s.cyc + 1) else x.headFree
  setQueueAt t q { x with held := x.held ++ [e], headFree := free } s

/-- A queue instruction: the ra field names the queue (R147). -/
def queueIssue (i : Instr) (u : Agent) (f : FmtQ) (s : State) (reserved : Bool) (body : Nat → Nat → Nat → State → Issue) :
    Host.Outcome State Fault Refusal :=
  issue i u s [(!isSpur u, .illegalOpcode), (reserved, .reservedBitSet), (decide (2 < f.ra.toNat), .illegalValue)] fun s =>
    match u with
    | .spur t n => body t n f.ra.toNat s
    | .grotto _ => .halt .illegalOpcode

/-- QPUSH (R89): waits on a full queue; halts on one that is full and halted. -/
def execQpush (u : Agent) (f : FmtQ) (s : State) : Host.Outcome State Fault Refusal :=
  queueIssue (.qpush u f) u f s (f.rd != 0 || f.rc != 0) fun t n q s =>
    let x := queueAt s t q
    if x.full then (if x.st = .halted then .halt .wrongState else .hold (.slot q none) s)
    else .go (pushEntry t q (entryOf u s f.rb n) s)

/-- QPUSHN (R89): g[rd] is OK or QUEUE_FULL. -/
def execQpushn (u : Agent) (f : FmtQ) (s : State) : Host.Outcome State Fault Refusal :=
  queueIssue (.qpushn u f) u f s (f.rc != 0) fun t n q s =>
    if (queueAt s t q).full then .go (setG u f.rd (Code.queueFull).toNat s)
    else .go (setG u f.rd (Code.ok).toNat (pushEntry t q (entryOf u s f.rb n) s))

/-- QFLUSH (R94). -/
def execQflush (u : Agent) (f : FmtQ) (s : State) : Host.Outcome State Fault Refusal :=
  queueIssue (.qflush u f) u f s (f.rd != 0 || f.rb != 0 || f.rc != 0) fun t _ q s => .go (flushQueue t q s)

/-- QSTAT (R147): g[rd] is TILE_Q_STATEq. -/
def execQstat (u : Agent) (f : FmtQ) (s : State) : Host.Outcome State Fault Refusal :=
  queueIssue (.qstat u f) u f s (f.rb != 0 || f.rc != 0) fun t _ q s => .go (setG u f.rd (queueWord s t (queueAt s t q)) s)

/-! Wakes. -/

/-- A context back in READY. -/
def readyCtx (t n : Nat) (s : State) : State := setCtxAt s t n { ctxAt s t n with st := .ready, wait := .none }

/-- A context that a counter write woke: it issues ahead of its core's rotation (R82). -/
def wokenCtx (t : Fin 512) (n : Fin 8) (s : State) : State :=
  let s := readyCtx t n s
  let u : Agent := .spur t n
  { s with boards := SMap.put (unitKey u) { boardOf u s with woke := some s.cyc } s.boards }

/-- CONTEXT_WAKE (R82, R172): twelve cycles after the write that met its wait, a context issues again, or a queue
head may start. -/
def execContextWake (t : Fin 512) (w : Waiter) (s : State) : Host.Outcome State Fault Refusal :=
  match physOf s t, w with
  | none, _ => .next s
  | some _, .ctx n =>
    match (ctxAt s t n).st, (ctxAt s t n).wait with
    | .wait, .counter _ _ _ (some m) => .next (wokenCtx t n (s.upTo (m + 12)))
    | _, _ => .next s
  | some _, .queue q =>
    let x := queueAt s t q
    match x.st, x.headMet with
    | .stalled, some m => .next (setQueueAt t q { x with st := .run } (s.upTo m))
    | _, _ => .next s

/-- SADDLE_WAKE (R172): the wake of a wait on a host-visible counter arrives, as the meeting write of R82. -/
def execSaddleWake (t : Fin 512) (w : Waiter) (s : State) : Host.Outcome State Fault Refusal :=
  match physOf s t, w with
  | none, _ => .next s
  | some _, .ctx n =>
    match (ctxAt s t n).st, (ctxAt s t n).wait with
    | .wait, .counter c tgt (some a) none =>
      .next (setCtxAt (s.upTo a) t n { ctxAt s t n with wait := .counter c tgt (some a) (some a) })
    | _, _ => .next s
  | some _, .queue q =>
    let x := queueAt s t q
    match x.wake, x.headMet with
    | some a, none => .next (setQueueAt t q { x with wake := none, headMet := some (a + 12) } (s.upTo a))
    | _, _ => .next s

/-- QUEUE_SLOT_READY (R83): two cycles after a slot frees, the context tries its push again. -/
def execQueueSlotReady (t : Fin 512) (n : Fin 8) (s : State) : Host.Outcome State Fault Refusal :=
  match physOf s t, (ctxAt s t n).st, (ctxAt s t n).wait with
  | some _, .wait, .slot _ (some c) => .next (readyCtx t n (s.upTo (c + 2)))
  | _, _, _ => .next s

/-- An MXMUL has finished with bank `b`: on the cycle of its last write (the model's choice, log entry 80). -/
def bankFreed (t b : Nat) (s : State) : State :=
  s.updTile (tileAt s t) fun y =>
    { y with ctx := y.ctx.map fun e => (e.1,
        match e.2.wait with
        | .bank c _ => if c = b then { e.2 with wait := .bank c (some s.cyc) } else e.2
        | _ => e.2) }

/-- ACC_BANK_READY (R44, R83): two cycles after the bank is released, the context tries its load again. -/
def execAccBankReady (t : Fin 512) (n : Fin 8) (s : State) : Host.Outcome State Fault Refusal :=
  match physOf s t, (ctxAt s t n).st, (ctxAt s t n).wait with
  | some h, .wait, .bank b freed =>
    let x := s.tile h
    let at_ := max (drainsEnd x b) (freed.getD 0)
    if bankBusy x b (max at_ s.cyc) then .next s
    else .next (readyCtx t n (s.upTo (at_ + 2)))
  | _, _, _ => .next s

/-- The add of a signal clause: to a counter of this device; to one of another device with an FSEND's last line, or
as a remote CADD travels (R149, R298, R300). A signal of a scope under reset into it is absorbed (Table BUP-6). -/
def fireSignal (t q op dev block index n : Nat) (s : State) : State :=
  if dev = devId s then
    let c : Cnt := ⟨if block = 0xFFF then t else block, index⟩
    if tileResetting s t && decide (c.block < 0x200) && tileResetting s c.block then s else
    match partOfTile s t with
    | some p => noteIssued p t (queueUnit q) (cntId s c) n (issueAdd (.tile t) c n s)
    | none => issueAdd (.tile t) c n s
  else
    match partOfTile s t with
    | some p =>
      let s := if op = 0x21 then s else forward none (.xfer (caddHeader s t (queueUnit q) p dev block index n) []) s
      noteIssued p t (queueUnit q) (dev * 2 ^ 20 + block * 256 + index) n s
    | none => s

/-- SIGNAL_CLAUSE (R92, R177): the signal of the oldest completed command of a queue fires, the earlier ones having
fired. -/
def execSignalClause (t : Fin 512) (q : Fin 3) (s : State) : Host.Outcome State Fault Refusal :=
  match physOf s t with
  | none => .next s
  | some _ =>
    let x := queueAt s t q
    match x.flights with
    | f :: r =>
      if f.done then
        let cl := f.entry.clause.toNat
        let s := setQueueAt t q { x with flights := dropSilent r } s
        if f.failed then .next s
        else
          let dev := if cl.testBit 86 then bitsOf cl 120 107 else devId s
          .next (fireSignal t q (cmdOp f.entry.cmd) dev (bitsOf cl 106 95) (bitsOf cl 94 87) (bitsOf cl 126 121) s)
      else .next s
    | [] => .next s

/-! Starting the head. -/

/-- The head of queue `q` of logical tile `t`, on its physical tile, where nothing but the command's own conditions
keeps it from starting (R90, R184): checked, its wait met, the queue running; no matrix command after a mismatch in the
step (R66). -/
def headToStart (s : State) (t q op : Nat) : Option (Nat × QEntry) :=
  match activeTile s t with
  | none => none
  | some h =>
    if q = 0 ∧ (s.tile h).matrixBarred then none else
    let x := (s.tile h).qOf q
    match x.held, x.headMet with
    | e :: _, some _ => if x.st = .run && x.headReady && !x.flushing && cmdOp e.cmd == op then some (h, e) else none
    | _, _ => none

/-- The first cycle on which the head may start by its wait clause. -/
def headCycle (s : State) (t q : Nat) : Nat := max s.cyc ((queueAt s t q).headMet.getD 0)

/-- The head leaves the queue and is in flight (R90). -/
def launchHead (t q : Nat) (f : Flight) (s : State) : State :=
  let s := s.upTo f.start
  let x := queueAt s t q
  slotFreed t q (setQueueAt t q
    { x with held := x.held.drop 1, headReady := false, headMet := none, wake := none, headFree := s.cyc + 1
             flights := x.flights ++ [f] } s)

end Sys2Proof.Machine
end

