-- ==== Sys2Proof/Machine/Heads.lean ====
section
/-! DEFINITION. The head of a tile queue: its static checks and its wait clause (R82, R90, R91, R148 to R158). -/
namespace Sys2Proof.Machine

/-- Bits `hi:lo` of a command or clause block. -/
def fld (c : BitVec 128) (hi lo : Nat) : Nat := bitsOf c.toNat hi lo

/-- Bytes of the tile store. -/
def storeBytes : Nat := 0x400000
/-- Bytes of a slice. -/
def sliceBytes : Nat := 0x10000000
/-- Bytes of the space TS (0) or SL (1). -/
def tsOrSl (sp : Nat) : Nat := if sp = 0 then storeBytes else sliceBytes

/-! Element formats (R150). -/

/-- Bits of an element of format code `f`. -/
def fmtBits (f : Nat) : Nat :=
  if f = 9 then 4 else if f = 7 ∨ f = 8 then 6 else if f = 3 ∨ f = 4 then 16 else if f = 10 then 32 else 8
/-- Formats with block scales. -/
def fmtScaled (f : Nat) : Bool := decide (5 ≤ f ∧ f ≤ 9)
/-- Formats that an MXLOAD or MXMUL accepts. -/
def fmtKnown (f : Nat) : Bool := decide (f ≤ 9)
/-- The largest K of a format (R54). -/
def fmtMaxK (f : Nat) : Nat := if 7 ≤ f ∧ f ≤ 9 then 256 else 128
/-- Stream cycles of one activation row (Table MX-8). -/
def fmtRowCycles (f : Nat) : Nat := if f = 3 ∨ f = 4 then 2 else 1
/-- Which formats pair (R46). -/
def fmtPair (f : Nat) : Nat := if f = 1 then 0 else if f = 6 then 5 else if f = 8 then 7 else f
/-- Load time L in FCLK cycles (R37, Table MX-8). -/
def loadTime (f : Nat) : Nat :=
  if f ≤ 2 then 128 else if f ≤ 4 then 256 else if f ≤ 6 then 132 else if f ≤ 8 then 200 else 136

/-- The presented class of a logical tile (R60). -/
def tileClass (s : State) (t : Nat) : Nat := clusterClass s (clusterOf t)

/-- What a static check finds, by the code that each breach gives (R118, R148). -/
structure Breach where
  reserved : Bool := false
  value : Bool := false
  range : Bool := false
  owner : Bool := false
  deriving DecidableEq, Repr

/-- Both of two findings. -/
def Breach.and (a b : Breach) : Breach :=
  ⟨a.reserved || b.reserved, a.value || b.value, a.range || b.range, a.owner || b.owner⟩

/-! Clauses (R149). -/

/-- Whether WEN is set. -/
def clWEN (c : BitVec 128) : Bool := c.getLsbD 84
/-- Whether SEN is set. -/
def clSEN (c : BitVec 128) : Bool := c.getLsbD 85
/-- The counter that a signal clause of logical tile `t` names: device, counter. -/
def clSignal (s : State) (t : Nat) (c : BitVec 128) : Nat × Cnt :=
  let b := fld c 106 95
  let dev := if c.getLsbD 86 then fld c 120 107 else devId s
  (dev, ⟨if b = 0xFFF ∧ dev = devId s then t else b, fld c 94 87⟩)

/-- Whether a queue of logical tile `t` may wait on a counter (R171). -/
def queueMayWait (s : State) (t : Nat) (c : Cnt) : Bool :=
  match holderOf s c with
  | some (.tile _ b _) => b == t
  | some (.group g _) => (partOfGroup s g).isSome && partOfGroup s g == partOfTile s t
  | _ => false

/-- The findings on a signal clause (R149, R164, R165); for an FSEND, R299's. -/
def signalBreach (s : State) (t : Nat) (e : QEntry) : Breach :=
  let c := e.clause
  let (dev, cnt) := clSignal s t c
  let own := match holderOf s cnt with
    | some x => (holderPart s x).isSome && holderPart s x == partOfTile s t
    | none => false
  let base : Breach := { reserved := !c.getLsbD 86 && fld c 120 107 != 0, value := fld c 126 121 == 0 }
  if cmdOp e.cmd = 0x21 then
    { base with value := base.value || (if c.getLsbD 86 then dev != fld e.cmd 50 37 else !own) }
  else if dev ≠ devId s then base
  else if (holderOf s cnt).isNone then { base with range := true }
  else { base with owner := !own }

/-- The findings on a clause block. -/
def clauseBreach (s : State) (t : Nat) (e : QEntry) : Breach :=
  let c := e.clause
  let w : Breach :=
    if clWEN c then
      match e.waitCnt t with
      | some (x, _) => { range := !queueMayWait s t x }
      | none => {}
    else { reserved := fld c 83 0 != 0 }
  let g : Breach := if clSEN c then signalBreach s t e else { reserved := fld c 126 121 != 0 || fld c 120 86 != 0 }
  (w.and g).and { reserved := c.getLsbD 127 }

/-! Commands. -/

/-- Rows of `len` bytes, `n` of them, `stride` apart from `a`, pass the end of a space. -/
def passesEnd (space a n stride len : Nat) : Bool := decide (space < a + (n - 1) * stride + len)

/-- K of an MXLOAD. -/
def loadK (c : BitVec 128) : Nat := 32 * (fld c 15 13 + 1)
/-- N of an MXLOAD. -/
def loadN (c : BitVec 128) : Nat := 8 * (fld c 19 16 + 1)
/-- WFMT. -/
def loadFmt (c : BitVec 128) : Nat := fld c 11 8
/-- Bytes of one weight row. -/
def loadRow (c : BitVec 128) : Nat := (loadN c * fmtBits (loadFmt c) + 7) / 8

/-- R151. -/
def mxloadBreach (s : State) (t : Nat) (c : BitVec 128) : Breach :=
  let f := loadFmt c
  let wstr := fld c 52 41 * 128
  { reserved := fld c 127 96 != 0 || (!fmtScaled f && (c.getLsbD 53 || fld c 81 54 != 0 || fld c 95 82 != 0))
    value := !fmtKnown f || wstr == 0 || decide (wstr < loadRow c) || (fmtScaled f && decide (fld c 95 82 < loadN c))
    range := decide (fmtMaxK f < loadK c) || decide (tileClass s t < loadN c)
      || passesEnd (tsOrSl (fld c 12 12)) (fld c 40 20 * 128) (loadK c) wstr (loadRow c)
      || (fmtScaled f && passesEnd (tsOrSl (fld c 53 53)) (fld c 81 54) (loadK c / 32) (fld c 95 82) (loadN c)) }

/-- M of an MXMUL. -/
def mulM (c : BitVec 128) : Nat := 16 * (fld c 27 24 + 1)
/-- K of an MXMUL. -/
def mulK (c : BitVec 128) : Nat := 32 * (fld c 30 28 + 1)
/-- N of an MXMUL. -/
def mulN' (c : BitVec 128) : Nat := 8 * (fld c 34 31 + 1)
/-- AFMT. -/
def mulFmt (c : BitVec 128) : Nat := fld c 11 8
/-- Bytes of one activation row. -/
def mulRow (c : BitVec 128) : Nat := mulK c * fmtBits (mulFmt c) / 8
/-- Stream time S (Table MX-8). -/
def mulS (c : BitVec 128) : Nat := mulM c * fmtRowCycles (mulFmt c)

/-- R40, R54, R60, R152. -/
def mxmulBreach (s : State) (t : Nat) (c : BitVec 128) : Breach :=
  let f := mulFmt c
  let astr := fld c 60 51 * 64
  { reserved := fld c 127 83 != 0 || (!fmtScaled f && fld c 82 61 != 0)
    value := !fmtKnown f || astr == 0 || decide (astr < mulRow c)
    range := decide (fmtMaxK f < mulK c) || decide (tileClass s t < mulN' c) || decide (256 < fld c 23 16 + mulM c)
      || passesEnd storeBytes (fld c 50 35 * 64) (mulM c) astr (mulRow c)
      || (fmtScaled f && decide (storeBytes < fld c 82 61 + mulM c * (mulK c / 32))) }

/-- Rows of an MXDRAIN. -/
def drainRows (c : BitVec 128) : Nat := fld c 31 24 + 1
/-- N of an MXDRAIN. -/
def drainN (c : BitVec 128) : Nat := 8 * (fld c 35 32 + 1)
/-- Bytes of one drained row. -/
def drainRow (c : BitVec 128) : Nat := drainN c * fmtBits (fld c 11 8) / 8

/-- R153. -/
def mxdrainBreach (s : State) (t : Nat) (c : BitVec 128) : Breach :=
  let dstr := fld c 61 52 * 64
  { reserved := fld c 127 96 != 0 || fld c 63 62 != 0 || (!c.getLsbD 13 && fld c 95 64 != 0)
    value := !([0, 1, 3, 4, 10].contains (fld c 11 8)) || dstr == 0 || decide (dstr < drainRow c)
    range := decide (256 < fld c 23 16 + drainRows c) || decide (tileClass s t < drainN c)
      || passesEnd storeBytes (fld c 51 36 * 64) (drainRows c) dstr (drainRow c) }

/-- Bytes that an MVCOPY or FSEND moves. -/
def copyLen (c : BitVec 128) : Nat := 64 * (fld c 127 116 + 1)
/-- Bytes of a space of a move: TS, SL, VA. -/
def moveSpace (sp : Nat) : Nat := if sp = 2 then 2 ^ 52 else tsOrSl sp
/-- Whether two ranges of one length overlap. -/
def overlap (a b len : Nat) : Bool := decide (a < b + len ∧ b < a + len)

/-- R155. A TT destination that names the issuing tile itself is taken as any other, and not compared with a TS source
(the model's choice, log entry 91). -/
def mvcopyBreach (s : State) (t : Nat) (c : BitVec 128) : Breach :=
  let len := copyLen c
  let src := fld c 63 12
  let dst := fld c 115 64
  let ssp := fld c 9 8
  let dsp := fld c 11 10
  let tt := bitsOf dst 30 22
  { reserved := dsp == 3 && bitsOf dst 51 31 != 0
    value := ssp == 3 || src % 64 != 0 || dst % 64 != 0 || (ssp == dsp && overlap src dst len)
    range := passesEnd (moveSpace ssp) src 1 0 len
      || (if dsp = 3 then passesEnd storeBytes (bitsOf dst 21 0) 1 0 len
            || (physOf s tt).isNone || (partOfTile s tt).isNone || partOfTile s tt != partOfTile s t
          else passesEnd (moveSpace dsp) dst 1 0 len) }

/-- Element bits of an MVTRAN. -/
def tranBits (c : BitVec 128) : Nat :=
  let e := fld c 13 11
  if e = 0 then 4 else if e = 1 then 6 else 2 ^ (e + 1)
/-- R of an MVTRAN. -/
def tranR (c : BitVec 128) : Nat := 32 * (fld c 15 14 + 1)
/-- C of an MVTRAN. -/
def tranC (c : BitVec 128) : Nat := 32 * (fld c 17 16 + 1)

/-- R156. -/
def mvtranBreach (c : BitVec 128) : Breach :=
  let w := tranBits c
  let srow := tranC c * w / 8
  let drow := tranR c * w / 8
  let sstr := fld c 113 98 * 16
  let dstr := fld c 127 114 * 16
  let src := fld c 69 18
  let dst := fld c 97 70
  { value := decide (4 < fld c 13 11) || fld c 9 8 == 3 || decide (sstr < srow) || decide (dstr < drow)
      || src % 16 != 0 || dst % 16 != 0
    range := passesEnd (moveSpace (fld c 9 8)) src (tranR c) sstr srow
      || passesEnd (tsOrSl (fld c 10 10)) dst (tranC c) dstr drow }

/-- R158, R299. -/
def fsendBreach (s : State) (c : BitVec 128) : Breach :=
  let len := copyLen c
  let dst := fld c 115 64
  let dsp := fld c 53 52
  { reserved := fld c 63 59 != 0 || (dsp == 0 && bitsOf dst 51 31 != 0)
    value := decide (1 < dsp) || fld c 50 37 == devId s || fld c 36 9 % 64 != 0 || dst % 64 != 0
      || (!c.getLsbD 51 && c.getLsbD 8)
    range := passesEnd (tsOrSl (fld c 8 8)) (fld c 36 9) 1 0 len
      || (if dsp = 0 then passesEnd storeBytes (bitsOf dst 21 0) 1 0 len else passesEnd (2 ^ 52) dst 1 0 len) }

/-- The queue of an opcode (Table ALR-15). -/
def opQueue (op : Nat) : Option Nat :=
  if 1 ≤ op ∧ op ≤ 4 then some 0 else if op = 0x11 ∨ op = 0x12 then some 1 else if op = 0x21 then some 2 else none

/-- The findings on a command. -/
def cmdBreach (s : State) (t : Nat) (c : BitVec 128) : Breach :=
  let op := cmdOp c
  if op = 1 then mxloadBreach s t c
  else if op = 2 then mxmulBreach s t c
  else if op = 3 then mxdrainBreach s t c
  else if op = 4 then { reserved := fld c 127 8 != 0 }
  else if op = 0x11 then mvcopyBreach s t c
  else if op = 0x12 then mvtranBreach c
  else fsendBreach s c

/-- The static checks of an entry at the head of queue `q` of logical tile `t` (R148). -/
def staticCheck (s : State) (t q : Nat) (e : QEntry) : Option Code :=
  if opQueue (cmdOp e.cmd) ≠ some q then some .illegalOpcode
  else
    let b := (cmdBreach s t e.cmd).and (clauseBreach s t e)
    firstOf [(b.reserved, .reservedBitSet), (b.value, .illegalValue), (b.range, .outOfRange), (b.owner, .notOwner)]

/-- The checked head considers its wait clause (R82, R91). -/
def considerWait (s : State) (t : Nat) (x : Queue) (e : QEntry) : Queue :=
  let met := match e.waitCnt t with
    | some (c, v) => (match holderOf s c with | some h => decide (v ≤ holderValue s h) | none => false)
    | none => true
  if met then { x with headReady := true, headMet := some s.cyc, st := .run }
  else { x with headReady := true, headMet := none, wake := none, st := .stalled }

/-- QUEUE_HEAD (R90, R91, R148): the entry becomes the head, is checked, and considers its wait clause. -/
def execQueueHead (t : Fin 512) (q : Fin 3) (s : State) : Host.Outcome State Fault Refusal :=
  match physOf s t with
  | none => .next s
  | some _ =>
    let x := queueAt s t q
    match x.held with
    | [] => .next s
    | e :: _ =>
      if x.headReady || x.flushing || x.st == .halted || tileResetting s t then .next s
      else
        let s := s.upTo x.headFree
        match staticCheck s t q e with
        | some c => .next (haltQueue t q c s)
        | none => .next (setQueueAt t q (considerWait s t x e) s)

end Sys2Proof.Machine
end

