-- ==== Sys2Proof/Machine/Matrix.lean ====
section
/-! DEFINITION. The matrix engine (R35 to R74, R151 to R154). -/
namespace Sys2Proof.Machine

/-! Elements (Table MX-4, R48, R49). -/

/-- The value of an element of format code `f`. -/
def elemValue (f x : Nat) : FpNum :=
  if f = 0 ∨ f = 5 then decodeF e4m3 x
  else if f = 1 ∨ f = 6 then decodeF e5m2 x
  else if f = 2 then intN (signedOf 8 x)
  else if f = 3 then decodeF fp16 x
  else if f = 4 then decodeF bf16 x
  else if f = 7 then decodeF e2m3 x
  else if f = 8 then decodeF e3m2 x
  else decodeF e2m1 x

/-- The `n` element codes of `w` bits that a row of bytes packs (R48). -/
def unpack (w n : Nat) (bs : List Byte) : List Nat :=
  let x := natOfBytes bs
  (List.range n).map fun i => (x >>> (w * i)) % 2 ^ w

/-- The bytes that pack element codes of `w` bits. -/
def pack (w : Nat) (xs : List Nat) : List Byte :=
  bytesOf ((xs.length * w + 7) / 8) (xs.zipIdx.foldl (fun m x => m + (x.1 % 2 ^ w) <<< (w * x.2)) 0)

/-- The factor of an E8M0 scale; 0xFF makes what it covers NaN (R49). -/
def scaleValue (x : Nat) : FpNum := if x = 255 then .nan else .fin false 1 ((x : Int) - 127)

/-! Arithmetic (R50 to R53). -/

/-- The exact sum of products of two lists. -/
def dotN : List FpNum → List FpNum → FpNum
  | a :: as, b :: bs => addN (mulN a b) (dotN as bs)
  | _, _ => .fin false 0 0

/-- An exactly zero block sum is +0 (R52). -/
def plusZero : FpNum → FpNum
  | .fin _ 0 e => .fin false 0 e
  | x => x

/-- Lists cut into runs of 32. -/
def chunks32 (n : Nat) (xs : List FpNum) : List (List FpNum) := (List.range n).map fun b => (xs.drop (32 * b)).take 32

/-- One block of R50: the exact sum of products, scaled exactly, rounded by `r`. -/
def blockValue (r : FpNum → FpNum) (a w : List FpNum) (sc : FpNum) : FpNum := r (plusZero (mulN (plusZero (dotN a w)) sc))

/-- Values added in order, each sum rounded by `r`. -/
def sumRounded (r : FpNum → FpNum) : List FpNum → FpNum
  | [] => .fin false 0 0
  | x :: xs => xs.foldl (fun m y => r (addN m y)) x

/-- A value rounded to FP32, as a value. -/
def round32 (x : FpNum) : FpNum := decodeF fp32 (roundF fp32 false x)

/-- V of R50, steps 1 to 3, or its like in another rounding: the activations and weights in blocks, and the factor
of each block. -/
def passValue (r : FpNum → FpNum) (a w : List (List FpNum)) (sc : List FpNum) : FpNum :=
  sumRounded r ((a.zip (w.zip sc)).map fun x => blockValue r x.1 x.2.1 x.2.2)

/-- Column `n` of a weight block, in runs of 32. -/
def WBlock.column (b : WBlock) (n : Nat) : List (List FpNum) :=
  chunks32 (b.k / 32) ((List.range b.k).map fun k => elemValue b.fmt (b.w.getD (k * b.n + n) 0))
/-- The weight scales of column `n`, one factor for each run of 32. -/
def WBlock.scales (b : WBlock) (n : Nat) : List FpNum :=
  (List.range (b.k / 32)).map fun i =>
    if fmtScaled b.fmt then scaleValue (b.sc.getD (i * b.n + n) 0) else .fin false 1 0

/-- An activation row: its runs of 32 elements and their scale factors. -/
structure ActRow where
  els : List (List FpNum)
  scs : List FpNum
  deriving DecidableEq, Repr

/-- Activation row `m` of an MXMUL, from the bytes that it read. -/
def actRow (c : BitVec 128) (act scales : List Byte) (m : Nat) : ActRow :=
  let f := mulFmt c
  let nb := mulK c / 32
  let row := unpack (fmtBits f) (mulK c) ((act.drop (m * mulRow c)).take (mulRow c))
  { els := chunks32 nb (row.map (elemValue f))
    scs := (List.range nb).map fun i =>
      if fmtScaled f then scaleValue ((scales.getD (m * nb + i) 0).toNat) else .fin false 1 0 }

/-- V for every column of a row (R50): of the block's N columns; those at and above N take no part, and their accumulator
elements stay as they were (the model's choice, log entry 81). -/
def rowValues (b : WBlock) (a : ActRow) : List FpNum :=
  (List.range b.n).map fun n => passValue round32 a.els (b.column n) ((a.scs.zip (b.scales n)).map fun x => mulN x.1 x.2)

/-! The check column (R63 to R66). -/

/-- The rounding of the check format; INT8 is exact. -/
def checkRound (f : Nat) (x : FpNum) : FpNum := if f = 2 then x else roundSig 24 x

/-- W(k) of R63, and A(k) with magnitudes, in runs of 32. -/
def checkWeights (b : WBlock) (mag : Bool) : List (List FpNum) :=
  let g (x : FpNum) : FpNum := if mag then absN x else x
  chunks32 (b.k / 32) ((List.range b.k).map fun k =>
    checkRound b.fmt ((List.range b.n).foldl (init := .fin false 0 0) fun m n =>
      addN m (mulN (g (elemValue b.fmt (b.w.getD (k * b.n + n) 0))) ((b.scales n).getD (k / 32) (.fin false 1 0)))))

/-- Whether a value is a NaN or an infinity. -/
def notFinite : FpNum → Bool
  | .fin _ _ _ => false
  | _ => true

/-- How a row's comparison ends. -/
inductive CheckEnd where
  | passed | failed | skipped
  deriving DecidableEq, Repr

/-- The comparison of a row (R64, R65), from what the array and the check column produced. -/
def compareRow (f : Nat) (vs : List FpNum) (c mag : FpNum) : CheckEnd :=
  let total := sumRounded (checkRound f) vs
  if vs.any notFinite || notFinite c || notFinite mag || notFinite total then .skipped
  else
    let diff := absN (addN c (negN total))
    let bound := if f = 2 then .fin false 0 0 else mulN mag (.fin false 1 (-12))
    if ltN bound diff then .failed else .passed

/-- A value with the pattern of a physical fault over it (log entry 4). -/
def disturb (fs : List PhysFault) (h col : Nat) (x : FpNum) : FpNum :=
  fs.foldl (init := x) fun x p =>
    match p with
    | .array g k flip => if g = h ∧ k = col then decodeF fp32 (roundF fp32 false x ^^^ flip.toNat) else x
    | _ => x

/-- Whether a physical data column is bypassed (TILE_MX_COLBAD). -/
def bypassed (s : State) (h j : Nat) : Bool :=
  if j < 64 then (rg s (.tile h) rTileMxColbad0).bit j else (rg s (.tile h) rTileMxColbad1).bit (j - 64)

/-- The physical data columns that carry the logical output columns, in their order (R59). -/
def columnsOf (s : State) (h : Nat) : List Nat := (List.range 128).filter fun j => !bypassed s h j

/-- The values that a row's columns deliver, and how its comparison ends. -/
def runRow (s : State) (h : Nat) (b : WBlock) (cw ca : List (List FpNum)) (a : ActRow) : List FpNum × CheckEnd :=
  let vs := ((rowValues b a).zip (columnsOf s h)).map fun (v, j) => disturb s.flt h j v
  if b.chk then
    let r := checkRound b.fmt
    let c := disturb s.flt h 128 (passValue r a.els cw a.scs)
    let mag := passValue r (a.els.map fun x => x.map absN) ca a.scs
    (vs, compareRow b.fmt vs c mag)
  else (vs, .passed)

/-! Starting commands. -/

/-- Commands of the matrix queue in flight, not yet complete. -/
def matrixBusy (x : Tile) : List Flight := (x.qOf 0).flights.filter fun f => !f.done
/-- Those with an opcode. -/
def matrixOps (x : Tile) (op : Nat) : List Flight := (matrixBusy x).filter fun f => cmdOp f.entry.cmd == op

/-- Byte ranges of `n` rows. -/
def rowRanges (a n stride len : Nat) : List (Nat × Nat) := (List.range n).map fun i => (a + i * stride, len)
/-- Whether two lists of byte ranges meet. -/
def rangesMeet (x y : List (Nat × Nat)) : Bool :=
  x.any fun a => y.any fun b => decide (a.1 < b.1 + b.2 ∧ b.1 < a.1 + a.2)

/-- Tile-store bytes that a matrix command reads. -/
def matrixReads (c : BitVec 128) : List (Nat × Nat) :=
  if cmdOp c = 1 then
    (if fld c 12 12 = 0 then rowRanges (fld c 40 20 * 128) (loadK c) (fld c 52 41 * 128) (loadRow c) else []) ++
      (if fmtScaled (loadFmt c) && fld c 53 53 == 0 then
        rowRanges (fld c 81 54) (loadK c / 32) (fld c 95 82) (loadN c) else [])
  else if cmdOp c = 2 then
    rowRanges (fld c 50 35 * 64) (mulM c) (fld c 60 51 * 64) (mulRow c) ++
      (if fmtScaled (mulFmt c) then [(fld c 82 61, mulM c * (mulK c / 32))] else [])
  else []

/-- Tile-store bytes that an MXDRAIN writes. -/
def drainWrites (c : BitVec 128) : List (Nat × Nat) :=
  rowRanges (fld c 51 36 * 64) (drainRows c) (fld c 61 52 * 64) (drainRow c)

/-- Whether a command reads bytes that an MXDRAIN in flight will never write, because a row that it reads is poisoned: the
command stays behind it until it has failed (R43, R67, R93). -/
def behindBadDrain (x : Tile) (c : BitVec 128) : Bool :=
  (matrixOps x 3).any fun f => f.act == [] && rangesMeet (matrixReads c) (drainWrites f.entry.cmd)

/-- The first cycle on which a command may read what MXDRAIN `d`, started on cycle `start`, writes: the one after the
last of the bytes is written; row `i` of a drain is in the tile store 16 cycles after it is read (R42, R43, R57). -/
def afterDrain (c d : BitVec 128) (start : Nat) : Nat :=
  (drainWrites d).zipIdx.foldl (init := 0) fun m r =>
    if rangesMeet (matrixReads c) [r.1] then max m (start + r.2 + 17) else m

/-- The first cycle on which the bytes that a command reads have been written by every earlier MXDRAIN (R43). -/
def drainedFrom (x : Tile) (c : BitVec 128) : Nat :=
  (matrixOps x 3).foldl (fun m f => max m (afterDrain c f.entry.cmd f.start))
    (match x.lastDrain with | some (d, start) => afterDrain c d start | none => 0)

/-- The `n` rows of a drain from row `i`, written to the tile store. -/
def writeDrain (h : Nat) (c : BitVec 128) (bs : List Byte) (i n : Nat) (s : State) : State :=
  (List.range n).foldl (init := s) fun s j =>
    memWrite none (.store h) (fld c 51 36 * 64 + (i + j) * (fld c 61 52 * 64))
      ((bs.drop ((i + j) * drainRow c)).take (drainRow c)) s

/-- The rows of the drains of a tile in flight that are in the tile store before cycle `c` (R42). -/
def settleDrains (t h c : Nat) (s : State) : State :=
  (List.range (queueAt s t 0).flights.length).foldl (init := s) fun s k =>
    match (queueAt s t 0).flights[k]? with
    | some f =>
      let n := min (drainRows f.entry.cmd) (c - (f.start + 16))
      if !f.done && cmdOp f.entry.cmd == 3 && f.act != [] && decide (f.written < n) then
        let s := writeDrain h f.entry.cmd f.act f.written (n - f.written) s
        let x := queueAt s t 0
        setQueueAt t 0 { x with flights := x.flights.set k { f with written := n } } s
      else s
    | none => s

/-- The first cycle, from `c` on, from which `len` cycles hold no slice refresh slot (R198, R200). -/
def clearOfSlots (s : State) (h c len : Nat) : Nat :=
  let r := clusterOfPhys h
  let period := 8192 / slotsOf s r
  let x := (c - s.markCyc) % period
  if inSlot s r c then c + (64 - (c - s.markCyc) % 512)
  else if period < x + len then c + (period - x) + 64 else c

/-- The last-started command in flight fails at once in its run. -/
def failStarted (t q : Nat) (c : Code) (s : State) : State :=
  failFlight t q ((queueAt s t q).flights.length - 1) c s

/-- Reads of a tile in a list of ranges, joined; or the state after the report of an uncorrectable codeword. -/
def readRanges (i : MemId) (p : Option Nat) : List (Nat × Nat) → State → Option (List Byte) × State
  | [], s => (some [], s)
  | (a, len) :: r, s =>
    match memRead i a len p s with
    | (.data bs, s) =>
      match readRanges i p r s with
      | (some rest, s) => (some (bs ++ rest), s)
      | (none, s) => (none, s)
    | (.uncorrected _, s) => (none, s)

/-- The memory that a WSRC or SSRC bit selects. -/
def srcMem (h : Nat) (slice : Bool) : MemId := if slice then .slice h else .store h

/-- The weight codes of `k` rows of `n` from their joined bytes. -/
def weightCodes (c : BitVec 128) (bs : List Byte) : List Nat :=
  (List.range (loadK c)).flatMap fun k =>
    unpack (fmtBits (loadFmt c)) (loadN c) ((bs.drop (k * loadRow c)).take (loadRow c))

/-- MXLOAD (R37, R39, R200): the load starts; the shadow block is the one that it loads. -/
def execMxload (t : Fin 512) (s : State) : Host.Outcome State Fault Refusal :=
  match headToStart s t 0 1 with
  | none => .next s
  | some (h, e) =>
    let x := s.tile h
    let c := e.cmd
    if x.loadDue.isSome || behindBadDrain x c || matrixOps x 4 ≠ [] then .next s
    else
      let slice := c.getLsbD 12 || c.getLsbD 53
      let c0 := max (max (headCycle s t 0) x.shadowFree) (drainedFrom x c)
      let dur := loadTime (loadFmt c) + 8
      let c1 := if slice then clearOfSlots s h c0 dur else c0
      let s := launchHead t 0 { entry := e, start := c1, due := c1 + dur } (settleDrains t h c1 s)
      let s := s.updTile h fun y => { y with shadow := none }
      let p := partOfTile s t
      let (ws, s) := readRanges (srcMem h (c.getLsbD 12)) p
        (rowRanges (fld c 40 20 * 128) (loadK c) (fld c 52 41 * 128) (loadRow c)) s
      let (sc, s) := if fmtScaled (loadFmt c) then
          readRanges (srcMem h (c.getLsbD 53)) p (rowRanges (fld c 81 54) (loadK c / 32) (fld c 95 82) (loadN c)) s
        else (some [], s)
      match ws, sc with
      | some ws, some sc =>
        let b : WBlock := { fmt := loadFmt c, k := loadK c, n := loadN c, w := weightCodes c ws
                            sc := sc.map (·.toNat), chk := (rg s (.tile h) rTileMxCtrl).bit 0 }
        .next (s.updTile h fun y => { y with loadDue := some (b, c1 + dur) })
      | _, _ => .next (failStarted t 0 .eccUncorrected s)

/-- The index of the oldest command of an opcode in flight. -/
def oldestOf (x : Queue) (op : Nat) : Option Nat := x.flights.findIdx? fun f => !f.done && cmdOp f.entry.cmd == op

/-- MXLOAD_DONE (R37): the block is loaded and its check sums are formed. -/
def execMxloadDone (t : Fin 512) (s : State) : Host.Outcome State Fault Refusal :=
  match physOf s t with
  | none => .next s
  | some h =>
    match (s.tile h).loadDue, oldestOf (queueAt s t 0) 1 with
    | some (b, due), some i =>
      let s := s.upTo due
      .next (completeFlight t 0 i (s.updTile h fun y =>
        { y with shadow := some b, loadDue := none, shadowFree := due + 1 }))
    | _, _ => .next s

/-- The start checks of an MXMUL, in the order of R38, R152 and R46. -/
def mulStart (x : Tile) (c : BitVec 128) : Option Code :=
  match (if c.getLsbD 12 then x.shadow else x.active) with
  | none => some .wrongState
  | some b =>
    if b.k ≠ mulK c ∨ b.n ≠ mulN' c ∨ fmtPair b.fmt ≠ fmtPair (mulFmt c) then some .illegalValue else none

/-- The cycle from which the stream of earlier MXMULs leaves the array free (R57). -/
def streamFree (x : Tile) : Nat := (matrixOps x 2).foldl (fun m f => max m (f.start + mulS f.entry.cmd)) 0

/-- MXMUL (R38, R40, R43, R46, R57): the first activation row enters the array; with SWAP = 1 the shadow block
becomes active. -/
def execMxmul (t : Fin 512) (s : State) : Host.Outcome State Fault Refusal :=
  match headToStart s t 0 2 with
  | none => .next s
  | some (h, e) =>
    let x := s.tile h
    let c := e.cmd
    let swap := c.getLsbD 12
    if (swap && x.loadDue.isSome) || behindBadDrain x c || matrixOps x 4 ≠ [] then .next s
    else
      let c0 := max (max (headCycle s t 0) (streamFree x)) (drainedFrom x c)
      match mulStart x c with
      | some code => .next (haltQueue t 0 code (s.upTo c0))
      | none =>
        let blk := if swap then x.shadow else x.active
        let p := partOfTile s t
        let s := settleDrains t h c0 s
        let (act, s) := readRanges (.store h) p
          (rowRanges (fld c 50 35 * 64) (mulM c) (fld c 60 51 * 64) (mulRow c)) s
        let (sc, s) := if fmtScaled (mulFmt c) then
            readRanges (.store h) p [(fld c 82 61, mulM c * (mulK c / 32))] s
          else (some [], s)
        let s := launchHead t 0 { entry := e, start := c0, due := c0 + 264 + mulS c - 1, blk := blk
                                  act := act.getD [], scales := sc.getD [] } s
        let s := if swap then s.updTile h fun y => { y with active := y.shadow, shadow := none, shadowFree := c0 + 1 }
          else s
        if act.isSome && sc.isSome then .next s else .next (failStarted t 0 .eccUncorrected s)

/-- The index of an accumulator element: bank, row, column (Table SPR-4). -/
def accIndex (b r n : Nat) : Nat := b * 0x8000 + r * 128 + n

/-- One accumulator row after a pass (R50 step 4). -/
def writeRow (acc : SMap W32) (accumulate : Bool) (b r : Nat) (vs : List FpNum) : SMap W32 :=
  vs.zipIdx.foldl (init := acc) fun m (v, n) =>
    let i := accIndex b r n
    let x := if accumulate then addN (decodeF fp32 (SMap.get 0 m i).toNat) v else v
    SMap.put i (BitVec.ofNat 32 (roundF fp32 false x)) m

/-- Poison of the accumulator rows `b × 256 + r` for `n` rows from `r`. -/
def rowKeys (b r n : Nat) : List Nat := (List.range n).map fun i => b * 256 + r + i

/-- A mismatch or a failed known-answer pass (R66, R68, R69, R186): counts, MISMATCH, the partition's fault vector,
the step withheld, the pause for a diagnosis, and no more matrix commands in the step. -/
def noteMismatch (h t n : Nat) (code : Code) (s : State) : State :=
  let s := rsat (rput s (.tile h) rTileMxStatus 0 0 1) (.tile h) rTileMxChkcnt 31 0 n
  let s := if (rg s (.tile h) rTileMxCtrl).bit 1 then raiseFaultOf (partOfTile s t) s else s
  let s := match partOfTile s t with
    | some p => withholdRunning p code s
    | none => s
  wantPause (clusterOf t) (s.updTile h fun y => { y with diagWanted := true, matrixBarred := true })

/-- MXMUL_DONE (R50, R55, R63 to R67): the last result is written and the rows are compared. -/
def execMxmulDone (t : Fin 512) (s : State) : Host.Outcome State Fault Refusal :=
  match physOf s t with
  | none => .next s
  | some h =>
    let x := queueAt s t 0
    match oldestOf x 2 with
    | none => .next s
    | some i =>
      match x.flights[i]? with
      | some f =>
        match f.blk with
        | none => .next s
        | some b =>
          let c := f.entry.cmd
          let s := s.upTo f.due
          let cw := if b.chk then checkWeights b false else []
          let ca := if b.chk then checkWeights b true else []
          let rows := (List.range (mulM c)).map fun m => runRow s h b cw ca (actRow c f.act f.scales m)
          let bank := fld c 15 14
          let keys := rowKeys bank (fld c 23 16) (mulM c)
          let bad := rows.countP fun r => r.2 == .failed
          let skipped := rows.countP fun r => r.2 == .skipped
          let s := s.updTile h fun y =>
            { y with bankDone := SMap.put bank f.due y.bankDone
                     acc := rows.zipIdx.foldl (fun m r => writeRow m (c.getLsbD 13) bank (fld c 23 16 + r.2) r.1.1) y.acc
                     poison := if bad = 0 then (if c.getLsbD 13 then y.poison else y.poison.filter fun k => !keys.contains k)
                       else keys ++ y.poison.filter fun k => !keys.contains k }
          let s := if skipped = 0 then s else rsat s (.tile h) rTileMxChkcnt 63 32 skipped
          let s := bankFreed t bank s
          if bad = 0 then .next (completeFlight t 0 i s)
          else .next (failFlight t 0 i .mxCheckMismatch (noteMismatch h t bad .mxCheckMismatch s))
      | none => .next s

/-- The target format of a drain. -/
def drainFmt (f : Nat) : FFmt :=
  if f = 0 then e4m3 else if f = 1 then e5m2 else if f = 3 then fp16 else if f = 4 then bf16 else fp32

/-- One drained element (R53, Table MX-5). -/
def drainValue (c : BitVec 128) (v : W32) : Nat :=
  let sc := if c.getLsbD 13 then decodeF fp32 (fld c 95 64) else .fin false 1 0
  roundF (drainFmt (fld c 11 8)) (c.getLsbD 12) (mulN (decodeF fp32 v.toNat) sc)

/-- The bytes of the rows that a drain reads, one row after another. -/
def drainBytes (x : Tile) (c : BitVec 128) : List Byte :=
  (List.range (drainRows c)).flatMap fun i =>
    pack (fmtBits (fld c 11 8)) ((List.range (drainN c)).map fun n =>
      drainValue c (SMap.get 0 x.acc (accIndex (fld c 15 14) (fld c 23 16 + i) n)))

/-- MXDRAIN (R42): it waits for earlier MXMULs of the bank and for the drain port, and reads its first row on the cycle
after their last result, or after the last row of the drain before it, at the earliest. The rows that it reads hold what
those MXMULs left; a poisoned row makes it fail (R67). -/
def execMxdrain (t : Fin 512) (s : State) : Host.Outcome State Fault Refusal :=
  match headToStart s t 0 3 with
  | none => .next s
  | some (h, e) =>
    let x := s.tile h
    let c := e.cmd
    if ((matrixOps x 2).any fun f => fld f.entry.cmd 15 14 == fld c 15 14) || matrixOps x 4 ≠ [] then .next s
    else
      let port := (matrixOps x 3).foldl (fun m f => max m (f.start + drainRows f.entry.cmd)) 0
      let bank := if x.bankDone.has (fld c 15 14) then SMap.get 0 x.bankDone (fld c 15 14) + 1 else 0
      let c0 := max (headCycle s t 0) (max port bank)
      let bad := (rowKeys (fld c 15 14) (fld c 23 16) (drainRows c)).any fun k => x.poison.contains k
      let bs := if bad then [] else drainBytes x c
      .next (launchHead t 0 { entry := e, start := c0, due := c0 + drainRows c - 1 + 16, act := bs } s)

/-- MXDRAIN_DONE (R42, R67): the last row is in the tile store. -/
def execMxdrainDone (t : Fin 512) (s : State) : Host.Outcome State Fault Refusal :=
  match physOf s t with
  | none => .next s
  | some h =>
    let x := queueAt s t 0
    match oldestOf x 3 with
    | none => .next s
    | some i =>
      match x.flights[i]? with
      | some f =>
        let s := s.upTo f.due
        if f.act = [] then .next (failFlight t 0 i .mxCheckMismatch s)
        else
          let s := writeDrain h f.entry.cmd f.act f.written (drainRows f.entry.cmd - f.written) s
          .next (completeFlight t 0 i (s.updTile h fun y => { y with lastDrain := some (f.entry.cmd, f.start) }))
      | none => .next s

/-- MXKAT (R69): every earlier command has completed; both weight blocks are overwritten. -/
def execMxkat (t : Fin 512) (s : State) : Host.Outcome State Fault Refusal :=
  match headToStart s t 0 4 with
  | none => .next s
  | some (h, e) =>
    if matrixBusy (s.tile h) ≠ [] then .next s
    else
      let c0 := headCycle s t 0
      .next ((launchHead t 0 { entry := e, start := c0, due := c0 + 1024 } s).updTile h fun y =>
        { y with active := none, shadow := none })

/-- Whether a mapped tile is unchecked (R70). -/
def unchecked (s : State) (h : Nat) : Bool :=
  (logOf s h).isSome && (!(rg s (.tile h) rTileMxCtrl).bit 0 || !(rg s (.tile h) rTileMxCap).bit 2)

/-- Whether the array of a physical tile has a physical fault in a column in use: bypassed columns are out of the array
(R59, log entry 82). -/
def arrayFaulty (s : State) (h : Nat) : Bool :=
  s.flt.any fun p => match p with | .array g col _ => g == h && (decide (128 ≤ col) || !bypassed s h col) | _ => false

/-- MXKAT_DONE (R69, R70). -/
def execMxkatDone (t : Fin 512) (s : State) : Host.Outcome State Fault Refusal :=
  match physOf s t with
  | none => .next s
  | some h =>
    let x := queueAt s t 0
    match oldestOf x 4 with
    | none => .next s
    | some i =>
      match x.flights[i]? with
      | some f =>
        let s := s.upTo f.due
        if arrayFaulty s h then
          .next (failFlight t 0 i .mxKatFail (noteMismatch h t 1 .mxKatFail s))
        else
          let from_ := if unchecked s h then some s.cyc else none
          .next (completeFlight t 0 i (s.updTile h fun y => { y with kat := some s.cyc, katFrom := from_ }))
      | none => .next s

/-- KAT_OVERDUE (R70): 2,000 µs of 1.5 GHz without a successful pass on an unchecked tile. -/
def execKatOverdue (h : Fin 544) (s : State) : Host.Outcome State Fault Refusal :=
  match (s.tile h).katFrom with
  | none => .next s
  | some c =>
    if unchecked s h then
      let s := s.upTo (c + 2000 * 1500)
      let s := s.updTile h fun y => { y with katFrom := none }
      let s := logEvent (srcTile h) .katOverdue 0 (rput s (.tile h) rTileMxStatus 2 2 1)
      if (rg s (.tile h) rTileMxCtrl).bit 2 then
        match partOfCluster s (clusterOfPhys h) with
        | some p => .next (raiseEvent p s)
        | none => .next s
      else .next s
    else .next (s.updTile h fun y => { y with katFrom := none })

/-! Diagnosis (R68). -/

/-- STATE and LIDX of TILE_ID (R17, R18): retired 4, mapped 1, spare 2, unmapped 0. -/
def tileStateNow (s : State) (h : Nat) : Nat :=
  if s.bup.retiredInService.contains h || (rg s .bup (rBupRowmapr (clusterOfPhys h))).bit (39 + h % 17) then 4
  else if (logOf s h).isSome then 1
  else if clusterClass s (clusterOfPhys h) ≠ 0 then 2
  else 0

/-- TILE_ID follows the tile's mapping. -/
def renewTileId (h : Nat) (s : State) : State :=
  rput (rput s (.tile h) rTileId 21 19 (tileStateNow s h)) (.tile h) rTileId 41 32 ((logOf s h).getD 0x3FF)

/-- The interval of R70 starts anew for a tile that has just been mapped or become unchecked. -/
def restartKat (h : Nat) (s : State) : State :=
  s.updTile h fun y => { y with katFrom := if unchecked s h then some s.cyc else none }

/-- A diagnosis starts: 16,384 FCLK cycles; whether it follows a mismatch is kept for its end. -/
def startDiagnosis (h : Nat) (s : State) : State :=
  let s := rput (rput s (.tile h) rTileMxStatus 3 3 1) (.tile h) rTileId 21 19 3
  s.updTile h fun y => { y with diagFrom := some s.cyc, diagMismatch := y.diagWanted, diagWanted := false }

/-- A paused cluster whose diagnoses and repairs are over resumes at the next epoch mark (R185). -/
def wantResume (r : Nat) (s : State) : State :=
  match partOfCluster s r with
  | some p =>
    let diag := (List.range 17).any fun c => (s.tile (r * 17 + c)).diagFrom.isSome || (s.tile (r * 17 + c)).diagWanted
    if !diag && !(s.part p).repairs.any (fun x => x.1 == r) && (s.part p).paused.contains r then
      s.updPart p fun x => { x with resume := if x.resume.contains r then x.resume else r :: x.resume }
    else s
  | none => s

/-- The DIAGRES of a finding (table of R68): a single bad row is cured only by an unused good spare row; the third
unreproduced mismatch within 24 h counts as a fault. A diagnosis that follows no mismatch counts none. -/
def diagResult (s : State) (h : Nat) : DiagFinding → Nat
  | .notReproduced =>
    if (s.tile h).diagMismatch && decide (2 ≤ (s.tile h).unrepro.countP fun x => decide (s.nowNs - x ≤ 86400000000000)) then 3
    else 1
  | .oneBadRow _ => if (rg s (.tile h) rTileMxCap).bit 1 && !(rg s (.tile h) rTileMxCap).bit 0 then 2 else 3
  | .checkColumn | .other => 3

/-- TILE_MX_CAP and TILE_MX_COLBAD2 after a diagnosis with result `res` (R58, R61, R74): the spare row switched in, or
PCLASS of a tile to be retired; a bad check column. -/
def noteFinding (h res : Nat) (r : DiagFinding) (s : State) : State :=
  let b : Blk := .tile h
  let s := match r with
    | .checkColumn => rput (rput s b rTileMxCap 2 2 0) b rTileMxColbad2 0 0 1
    | .oneBadRow row => if res = 2 then rput (rput s b rTileMxCap 0 0 1) b rTileMxCap 15 8 row.val else s
    | _ => s
  if res = 3 then rput s b rTileMxCap 31 24 0 else s

/-- DIAGNOSIS_DONE (R68, R61, R62): both weight blocks are overwritten, all accumulator rows poisoned. -/
def execDiagnosisDone (h : Fin 544) (r : DiagFinding) (s : State) : Host.Outcome State Fault Refusal :=
  match (s.tile h).diagFrom with
  | none => .next s
  | some c =>
    let s := s.upTo (c + 16384)
    let res := diagResult s h r
    let s := s.updTile h fun y =>
      { y with active := none, shadow := none, loadDue := none, diagFrom := none, poison := List.range 1024
               diagMismatch := false
               unrepro := match r with
                 | .notReproduced => if y.diagMismatch then s.nowNs :: y.unrepro else y.unrepro
                 | _ => y.unrepro }
    let was := unchecked s h
    let s := noteFinding h res r
      (rput (rput s (.tile h) rTileMxStatus 3 3 0) (.tile h) rTileMxStatus 11 8 res)
    let s := if unchecked s h && !was then restartKat h s else s
    let s := if res = 3 then retireTile h s else s
    .next (wantResume (clusterOfPhys h) (renewTileId h s))

/-- A write of TILE_MX_CTRL (R63, R68, R70). -/
def wrTileMxCtrl (a : Acc) (h : Nat) (v : Word) (s : State) : State :=
  hostWrite a (.tile h) rTileMxCtrl dTileMxCtrl (.owner (partOfCluster s (clusterOfPhys h))) v
    (fun x s => firstOf [
      (x.v.bit 0 && !(rg s (.tile h) rTileMxCap).bit 2, .wrongState),
      (x.v.bit 3 && (logOf s h).isSome && !clusterPaused s (clusterOfPhys h), .wrongState)])
    (fun x s =>
      let s := if x.v.bit 3 then startDiagnosis h s else s
      if x.old.bit 0 && !x.new.bit 0 && (logOf s h).isSome then
        s.updTile h fun y => { y with katFrom := some s.cyc }
      else if !x.old.bit 0 && x.new.bit 0 then s.updTile h fun y => { y with katFrom := none }
      else s) s

/-- DIAG (R68). -/
def execDiag (a : Acc) (h : Fin 544) (v : Word) (s : State) : Host.Outcome State Fault Refusal :=
  .next (wrTileMxCtrl a h (v ||| 8) s)

/-- A write of TILE_MX_STATUS: KATOVD and MISMATCH are cleared by writing 1. -/
def wrTileMxStatus (a : Acc) (h : Nat) (v : Word) (s : State) : State :=
  hostWrite a (.tile h) rTileMxStatus dTileMxStatus (.owner (partOfCluster s (clusterOfPhys h))) v noCheck noAct s

/-- A write of TILE_ERRCODE. -/
def wrTileErrcode (a : Acc) (h : Nat) (v : Word) (s : State) : State :=
  hostWrite a (.tile h) rTileErrcode dTileErrcode (.owner (partOfCluster s (clusterOfPhys h))) v noCheck
    (clearErr (.tile h) rTileErrcode) s

/-- A write of TILE_CTX_CTRL (R87). -/
def wrTileCtxCtrl (a : Acc) (h : Nat) (v : Word) (s : State) : State :=
  hostWrite a (.tile h) rTileCtxCtrl dTileCtxCtrl (.owner (partOfCluster s (clusterOfPhys h))) v
    (fun x s => firstOf [((List.range 8).any fun n => x.v.bit (8 + n) && ((s.tile h).ctxOf n).st != .halted, .wrongState)])
    (fun x s => (List.range 8).foldl (init := s) fun s n =>
      if x.v.bit (8 + n) then
        s.updTile h fun y => y.setCtx n { y.ctxOf n with st := .idle, code := 0, wait := .none }
      else s) s

/-- CTX_RESTART (R87). -/
def execCtxRestart (a : Acc) (h : Fin 544) (v : Word) (s : State) : Host.Outcome State Fault Refusal :=
  .next (wrTileCtxCtrl a h v s)

/-- A write of TILE_Q_CTRL (R94). -/
def wrTileQCtrl (a : Acc) (h : Nat) (v : Word) (s : State) : State :=
  hostWrite a (.tile h) rTileQCtrl dTileQCtrl (.owner (partOfCluster s (clusterOfPhys h))) v noCheck
    (fun x s =>
      match logOf s h with
      | some t => (List.range 3).foldl (init := s) fun s q => if x.v.bit q then flushQueue t q s else s
      | none => s) s

/-- FLUSH (R94). -/
def execFlush (a : Acc) (h : Fin 544) (v : Word) (s : State) : Host.Outcome State Fault Refusal :=
  .next (wrTileQCtrl a h v s)

end Sys2Proof.Machine
end

