-- ==== Sys2Proof/Machine/Moves.lean ====
section
/-! DEFINITION. Moves and sends (R33, R34, R71 to R73, R155 to R158, R298 to R300, R350, R351). -/
namespace Sys2Proof.Machine

/-! Bytes behind a physical address, reached by a unit of partition `p`. -/

/-- Why an access of partition `p` to the guest region ends, if it does (R34, R350, R351). -/
def guestDenied (s : State) (p : Nat) : Option Code :=
  firstOf [(!Config.variantG, .outOfRange), (!(rgEff s .gst rGstPolicy).bit (32 + p), .notOwner),
    (rf s .gst rGstCtrl 10 8 != 2 || (rg s .gst rGstCtrl).bit 1, .linkFault)]

/-- Bytes read, or the code that ends the access, and the state after its reports. -/
abbrev ByteRead := Except Code (List Byte) × State

/-- Why an access of partition `p` to the host memory on a port ends, if it does (R33). -/
def hostDenied (s : State) (p : Nat) (port : Bool) : Option Code :=
  firstOf [(port != partPort s p, .notOwner), (!portUp s port, .linkFault)]

/-- Whether byte `x` of stack `k` lies in a range of partition `p` (R211). -/
def holdsByte (s : State) (p k x : Nat) : Bool :=
  match rangeAt s k x with
  | some (q, _) => q == p
  | none => false

/-- A read at a device physical address (R33, R34, R211, R227), which the traverse of partition `who` plans (R256). With
`again` the same command has just read the line before, so that one transfer serves both where they share a unit (R208). -/
def readPlace (who : Option Nat) (p a len : Nat) (again : Bool) (s : State) : ByteRead :=
  match placeOf a with
  | .stack k x =>
    if !holdsByte s p k x then (.error .outOfRange, s)
    else if again && unitSize s k x == 128 && x % 128 != 0 then
      (.ok (delivered s (.stack k) x (s.mem.readBytes x len)), s)
    else
      match memRead (.stack k) x len (some p) (ordinaryAccess who k x len s) with
      | (.data bs, s) => (.ok bs, s)
      | (.uncorrected _, s) => (.error .eccUncorrected, s)
  | .host port x =>
    match hostDenied s p port with
    | some c => (.error c, s)
    | none => (.ok ((s.hostMem port).readBytes x len), s)
  | .guest x =>
    match guestDenied s p with
    | some c => (.error c, s)
    | none => (.ok (s.guestMem.readBytes x len), s)
  | _ => (.error .outOfRange, s)

/-- A posted write to a host's memory. -/
def postHost (port : Bool) (a : Nat) (bs : List Byte) (s : State) : State :=
  (s.setHostMem port ((s.hostMem port).writeBytes a bs)).send (.posted port a bs)

/-- A write at a device physical address. -/
def writePlace (who : Option Nat) (p a : Nat) (bs : List Byte) (s : State) : Except Code State :=
  match placeOf a with
  | .stack k x =>
    if holdsByte s p k x then .ok (memWrite none (.stack k) x bs (ordinaryAccess who k x bs.length s)) else .error .outOfRange
  | .host port x =>
    match hostDenied s p port with
    | some c => .error c
    | none => .ok (postHost port x bs s)
  | .guest x =>
    match guestDenied s p with
    | some c => .error c
    | none => .ok { s with guestMem := s.guestMem.writeBytes x bs }
  | _ => .error .outOfRange

/-- The pieces of `len` bytes from a device physical address, cut where the interleave may change the place (R206, R241):
address and length of each. -/
def pieces (a len : Nat) : List (Nat × Nat) :=
  (List.range ((a % 4096 + len + 4095) / 4096)).map fun j =>
    let lo := max a (a / 4096 * 4096 + 4096 * j)
    (lo, min (a + len) (a / 4096 * 4096 + 4096 * (j + 1)) - lo)

/-- A read of any length, piece by piece, up to the first that ends it. -/
def readSpan (who : Option Nat) (p a len : Nat) (s : State) : ByteRead :=
  (pieces a len).foldl (init := (.ok [], s)) fun r x =>
    match r with
    | (.error c, s) => (.error c, s)
    | (.ok bs, s) =>
      match readPlace who p x.1 x.2 false s with
      | (.error c, s) => (.error c, s)
      | (.ok more, s) => (.ok (bs ++ more), s)

/-- The bytes behind a device physical address as they are stored, whoever may read them; zeros where there are none. -/
def storedBytes (s : State) (a len : Nat) : List Byte :=
  match placeOf a with
  | .stack _ x => s.mem.readBytes x len
  | .host port x => (s.hostMem port).readBytes x len
  | .guest x => s.guestMem.readBytes x len
  | _ => List.replicate len 0

/-- A write of any length, piece by piece. -/
def writeSpan (who : Option Nat) (p a : Nat) (bs : List Byte) (s : State) : Except Code State :=
  (pieces a bs.length).foldl (init := .ok s) fun r x =>
    match r with
    | .error c => .error c
    | .ok s => writePlace who p x.1 ((bs.drop (x.1 - a)).take x.2) s

/-- A read by the move engine of logical tile `t` in TS, SL or VA (R155, R263, R266); `again` as for `readPlace`. -/
def moveRead (h t p sp a len : Nat) (again : Bool) (s : State) : ByteRead :=
  if sp = 2 then
    match xlateUse h t (queueUnit 1) p a s with
    | (some x, s) => readPlace (some p) p x len again s
    | (none, s) => (.error .outOfRange, s)
  else
    match memRead (srcMem h (sp == 1)) a len (some p) s with
    | (.data bs, s) => (.ok bs, s)
    | (.uncorrected _, s) => (.error .eccUncorrected, s)

/-- A write by the move engine in TS, SL, VA or another tile's store (TT); one into a scope under reset is absorbed
(Table BUP-6). -/
def moveWrite (h t p sp a : Nat) (bs : List Byte) (s : State) : Except Code State × State :=
  if sp = 2 then
    match xlateUse h t (queueUnit 1) p a s with
    | (some x, s) => (writePlace (some p) p x bs s, s)
    | (none, s) => (.error .outOfRange, s)
  else if sp = 3 && tileResetting s (bitsOf a 30 22) then (.error .scopeReset, s)
  else if sp = 3 then (.ok (memWrite none (.store (tileAt s (bitsOf a 30 22))) (bitsOf a 21 0) bs s), s)
  else (.ok (memWrite none (srcMem h (sp == 1)) a bs s), s)

/-- Lines written by a move: two of one 128 B unit together (R208). -/
def copyLines (h t p dsp dst : Nat) (bs : List Byte) (s : State) : Option Code × State :=
  if bs.isEmpty then (none, s)
  else
    match moveWrite h t p dsp dst bs s with
    | (.error c, s) => (some c, s)
    | (.ok s, _) => (none, s)

/-- The `n` lines of 64 B of a copy, one after another: the code of the first failure, and the state with the lines before it
written. The line `held` waits for the other line of its unit. -/
def copyUnits (h t p ssp dsp : Nat) (first : Bool) (held : List Byte) : Nat → Nat → Nat → State → Option Code × State
  | 0, _, dst, s => copyLines h t p dsp (dst - held.length) held s
  | n + 1, src, dst, s =>
    match moveRead h t p ssp src 64 (!first) s with
    | (.error c, s) =>
      match copyLines h t p dsp (dst - held.length) held s with
      | (some e, s) => (some e, s)
      | (none, s) => (some c, s)
    | (.ok bs, s) =>
      if dsp = 2 ∧ dst % 128 = 0 then copyUnits h t p ssp dsp false bs n (src + 64) (dst + 64) s
      else
        match copyLines h t p dsp (dst - held.length) (held ++ bs) s with
        | (some c, s) => (some c, s)
        | (none, s) => copyUnits h t p ssp dsp false [] n (src + 64) (dst + 64) s

/-- The physical address that a unit of tile `h` finds for `va`, in its buffer or by a walk. -/
def physVa (s : State) (h p va : Nat) : Option Nat :=
  match tbufFind (s.tile h).tbuf p va with
  | some e => if e.oa.isSome then e.phys s va else (walkEntry s p va).phys s va
  | none => (walkEntry s p va).phys s va

/-- FCLK cycles from the start of a move to its first byte in the tile store, where its source lies in a stack and its first
request is guaranteed (Table MEM-3): 8 more than for the request. -/
def moveLead (s : State) (t : Nat) (c : BitVec 128) : Nat :=
  match physOf s t, partOfTile s t with
  | some h, some p =>
    let toStore := if cmdOp c = 0x11 then fld c 11 10 == 0 else fld c 10 10 == 0
    let src := if cmdOp c = 0x11 then fld c 63 12 else fld c 69 18
    if fld c 9 8 = 2 ∧ toStore then
      match (physVa s h p src).map placeOf with
      | some (.stack k x) =>
        let b := regNow s k p (channelOf k x)
        let q := unitCharge (match rangeAt s k x with | some (_, f) => f | none => false)
        if q ≤ b.g ∧ q ≤ b.c then 8 + stackLatency s k (Fin.ofNat 512 t) else 0
      | _ => 0
    else 0
  | _, _ => 0

/-- A move starts: at most four are in flight (Table SPR-3). It takes the time to its first byte where the spec fixes that, and
no more (log entry 3). -/
def startMove (t op : Nat) (s : State) : State :=
  match headToStart s t 1 op with
  | none => s
  | some (_, e) =>
    if 4 ≤ (queueAt s t 1).inFlight then s
    else
      let c := headCycle s t 1
      launchHead t 1 { entry := e, start := c, due := c + moveLead s t e.cmd } s

/-- The `i`-th command in flight of queue `q` completes or fails. -/
def endFlight (t q i : Nat) (r : Option Code × State) : State :=
  match r.1 with
  | some c => failFlight t q i c r.2
  | none => completeFlight t q i r.2

/-- The end of the `i`-th command in flight of the move queue, where it has opcode `op`: `body` moves its bytes. -/
def endMove (t i op : Nat) (body : Nat → Nat → BitVec 128 → State → Option Code × State) (s : State) : State :=
  match physOf s t, partOfTile s t, (queueAt s t 1).flights[i]? with
  | some h, some p, some f =>
    if f.done || cmdOp f.entry.cmd != op then s else endFlight t 1 i (body h p f.entry.cmd (s.upTo f.due))
  | _, _, _ => s

/-- MVCOPY (R155, R157). -/
def execMvcopy (t : Fin 512) (s : State) : Host.Outcome State Fault Refusal := .next (startMove t 0x11 s)

/-- MVCOPY_DONE (R155, R157). -/
def execMvcopyDone (t : Fin 512) (i : Nat) (s : State) : Host.Outcome State Fault Refusal :=
  .next (endMove t i 0x11 (fun h p c s =>
    copyUnits h t p (fld c 9 8) (fld c 11 10) true [] (fld c 127 116 + 1) (fld c 63 12) (fld c 115 64) s) s)

/-- `len` bytes from `a` read in pieces, each up to the next multiple of 128 (R208). -/
def readPieces (h t p sp : Nat) : Nat → Nat → Nat → State → ByteRead
  | 0, _, _, s => (.ok [], s)
  | fuel + 1, a, len, s =>
    if len = 0 then (.ok [], s)
    else
      let z := min (128 - a % 128) len
      match moveRead h t p sp a z false s with
      | (.error c, s) => (.error c, s)
      | (.ok bs, s) =>
        match readPieces h t p sp fuel (a + z) (len - z) s with
        | (.error c, s) => (.error c, s)
        | (.ok rest, s) => (.ok (bs ++ rest), s)

/-- The `n` rows of a block, joined. -/
def readRows (h t p sp stride len : Nat) : Nat → Nat → State → ByteRead
  | 0, _, s => (.ok [], s)
  | n + 1, a, s =>
    match readPieces h t p sp (len / 128 + 2) a len s with
    | (.error c, s) => (.error c, s)
    | (.ok bs, s) =>
      match readRows h t p sp stride len n (a + stride) s with
      | (.error c, s) => (.error c, s)
      | (.ok rest, s) => (.ok (bs ++ rest), s)

/-- Row `j` of the transposed block: element `j` of each source row (R71). -/
def transposedRow (w rows srow j : Nat) (bs : List Byte) : List Byte :=
  pack w ((List.range rows).map fun i => (natOfBytes ((bs.drop (i * srow)).take srow) >>> (w * j)) % 2 ^ w)

/-- The whole block is read, then its transposed rows are written (R71, R72). -/
def transpose (h t p : Nat) (c : BitVec 128) (s : State) : Option Code × State :=
  let w := tranBits c
  let srow := tranC c * w / 8
  match readRows h t p (fld c 9 8) (fld c 113 98 * 16) srow (tranR c) (fld c 69 18) s with
  | (.error e, s) => (some e, s)
  | (.ok bs, s) =>
    (none, (List.range (tranC c)).foldl (init := s) fun s j =>
      memWrite none (srcMem h (fld c 10 10 == 1)) (fld c 97 70 + j * (fld c 127 114 * 16))
        (transposedRow w (tranR c) srow j bs) s)

/-- MVTRAN (R156, R157). -/
def execMvtran (t : Fin 512) (s : State) : Host.Outcome State Fault Refusal := .next (startMove t 0x12 s)

/-- MVTRAN_DONE (R71, R156, R157). -/
def execMvtranDone (t : Fin 512) (i : Nat) (s : State) : Host.Outcome State Fault Refusal :=
  .next (endMove t i 0x12 (fun h p c s => transpose h t p c s) s)

/-! Sends. -/

/-- The start checks of an FSEND (R299): the code of the first that fails, else the link for its class. -/
def sendStart (s : State) (p : Nat) (c : BitVec 128) : Except Code Nat :=
  match egress s (c.getLsbD 51) (fld c 50 37) with
  | .error e => .error e
  | .ok l => if !c.getLsbD 51 && !partRunning s p then .error .wrongState else .ok l

/-- Whether a link's send buffer has room for the header and the data units of an FSEND (R299): it holds what of the managed
class waits to leave (log entry 98). -/
def sendRoom (s : State) (l len : Nat) : Bool :=
  decide (waitingUnits (s.link l).vc0 + waitingUnits (s.link l).vc1 + len + 2 ≤ Config.sendBuffer + 4097)

/-- The header of a send that starts now (R298), with the first segments of Table FAB-3. -/
def sendHeader (s : State) (t p : Nat) (e : QEntry) : FabHeader :=
  let c := e.cmd
  let cl := e.clause
  { srcDev := BitVec.ofNat 14 (devId s), srcPart := Fin.ofNat 32 p, srcTile := t, srcUnit := queueUnit 2
    dstDev := BitVec.ofNat 14 (fld c 50 37), dpart := fld c 58 54, dsp := fld c 53 52, dst := fld c 115 64
    len := some (fld c 127 116), managed := c.getLsbD 51, vc1 := false
    signal := if clSEN cl && cl.getLsbD 86 then some (fld cl 106 95 * 256 + fld cl 94 87, fld cl 126 121) else none
    stampStep := curStep s p % 65536, start := stepCycles s p
    latency := 16 + 2 * rowEnd t + passage s (t / 256), cycles := 1 }

/-- FSEND (R299, R300): one in flight; a managed one waits for buffer space; the header is formed on the start cycle. -/
def execFsend (t : Fin 512) (s : State) : Host.Outcome State Fault Refusal :=
  match headToStart s t 2 0x21, partOfTile s t with
  | some (_, e), some p =>
    if (queueAt s t 2).inFlight ≠ 0 then .next s
    else
      let c := headCycle s t 2
      match sendStart s p e.cmd with
      | .error code => .next (haltQueue t 2 code (s.upTo c))
      | .ok l =>
        if e.cmd.getLsbD 51 && !sendRoom s l (fld e.cmd 127 116) then .next s
        else
          .next (launchHead t 2 { entry := e, start := c, due := c + fld e.cmd 127 116
                                  hdr := some (sendHeader (s.upTo c) t p e) } s)
  | _, _ => .next s

/-- The source lines that can be read, up to the first uncorrectable one, and whether all can. -/
def readLines (i : MemId) (p : Nat) : Nat → Nat → State → List Byte × Bool × State
  | 0, _, s => ([], true, s)
  | n + 1, a, s =>
    match memRead i a 64 (some p) s with
    | (.uncorrected _, s) => ([], false, s)
    | (.data bs, s) =>
      let (rest, ok, s) := readLines i p n (a + 64) s
      (bs ++ rest, ok, s)

/-- FSEND_DONE (R300): the last line has been read and checked, and the transfer is under way (log entry 97). -/
def execFsendDone (t : Fin 512) (s : State) : Host.Outcome State Fault Refusal :=
  match physOf s t, partOfTile s t with
  | some h, some p =>
    match oldestOf (queueAt s t 2) 0x21 with
    | none => .next s
    | some i =>
      match (queueAt s t 2).flights[i]? with
      | some f =>
        let s := s.upTo f.due
        let c := f.entry.cmd
        let (data, ok, s) := readLines (srcMem h (c.getLsbD 8)) p (fld c 127 116 + 1) (fld c 36 9) s
        let hd := f.hdr.getD (sendHeader s t p f.entry)
        if f.failed then .next (completeFlight t 2 i (forward none (.xfer { hd with signal := none } data) s))
        else if ok then .next (completeFlight t 2 i (forward none (.xfer hd data) s))
        else
          let s := if data = [] then s else forward none (.xfer { hd with signal := none } data) s
          .next (failFlight t 2 i .eccUncorrected s)
      | none => .next s
  | _, _ => .next s

end Sys2Proof.Machine
end

