-- ==== Sys2Proof/Machine/Arrivals.lean ====
section
/-! DEFINITION. Arrivals from other devices: admission, delivery, failure (R297, R301 to R303). -/
namespace Sys2Proof.Machine

/-- The counter that a transfer's signal names. -/
def sigCnt (n : Nat) : Cnt := ⟨n / 256, n % 256⟩
/-- The partition that an arrival is for (R297): DPART of an FSEND, the holder of a CADD's counter. -/
def arrivalPart (s : State) (x : FabHeader) : Option Nat :=
  match x.len, x.signal with
  | some _, _ => some x.dpart
  | none, some (n, _) => (holderOf s (sigCnt n)).bind (holderPart s)
  | none, none => none

/-- Whether a window of partition `p` admits a source (R297). -/
def admitted (s : State) (p : Nat) (x : FabHeader) : Bool :=
  (List.range 4).any fun w =>
    let r := rgEff s .fab (rFabAdmitpw p w)
    r.bit 63 && decide (r.field 13 0 ≤ x.srcDev.toNat ∧ x.srcDev.toNat ≤ r.field 41 28) &&
      (r.bit 62 || r.field 61 57 == x.srcPart.val)

/-- Whether partition `p` exists and is not under reset (Table BUP-6). -/
def partPresent (s : State) (p : Nat) : Bool := partValid s p && !partResetting s p

/-- Whether the store that a DSP 0 arrival names can be written: a logical index of the partition that a tile carries,
outside every reset, and lines inside the store. -/
def storeOk (s : State) (p dst len : Nat) : Bool :=
  let t := bitsOf dst 30 22
  partOfTile s t == some p && (physOf s t).isSome && !tileResetting s t && decide (bitsOf dst 21 0 + 64 * (len + 1) ≤ storeBytes)

/-- The failed check of an arrival for partition `p` (R297, Table FAB-4). -/
def arrivalBad (s : State) (p : Option Nat) (x : FabHeader) : Option Code :=
  match p with
  | none =>
    match x.signal with
    | some (n, _) => if (holderOf s (sigCnt n)).isNone then some .outOfRange else some .fabRejected
    | none => some .outOfRange
  | some p =>
    firstOf [(!admitted s p x, .fabRejected), (!partPresent s p, .outOfRange),
      (match x.len with
        | some len => x.dsp == 0 && !storeOk s p x.dst len
        | none => false, .outOfRange),
      (match x.signal with
        | some (n, _) => (holderOf s (sigCnt n)).isNone
        | none => false, .outOfRange),
      (match x.signal with
        | some (n, _) => (holderOf s (sigCnt n)).bind (holderPart s) != some p
        | none => false, .notOwner)]

/-- The signal of a transfer is added now. -/
def fireArrival (x : FabHeader) (s : State) : State :=
  match x.signal with
  | some (n, amount) => issueAt (sigCnt n) amount s.cyc s
  | none => s

/-- Whether a write at a device physical address is served as excess: bucket G of its regulator lacks the charge (R212). -/
def servedExcess (s : State) (a : Nat) : Bool :=
  match placeOf a with
  | .stack k x =>
    (match rangeAt s k x with
      | some (p, fine) => decide ((regNow s k p (channelOf k x)).g < unitCharge fine)
      | none => false)
  | _ => false

/-- Bytes written at the destination; whether a DSP 1 line missed in the arrival buffer or was served as excess (R269,
R302). -/
def writeArrival (p : Nat) (x : FabHeader) (off : Nat) (bs : List Byte) (s : State) : Except Code State × Bool × State :=
  if x.dsp = 0 then
    (.ok (memWrite none (.store (tileAt s (bitsOf x.dst 30 22))) (bitsOf x.dst 21 0 + off) bs s), false, s)
  else
    let va := x.dst + off
    let miss := (tbufFind s.arrivals p va).isNone
    match xlateArrival p va s with
    | (some a, s) => (writePlace (some p) p a bs s, miss || servedExcess s a, s)
    | (none, s) => (.error .outOfRange, miss, s)

/-- The lines of a transfer written one after another, two of one 128 B unit together (R208), and its signal; the rest is not
written where one fails, and a notice goes to the source (R303). -/
def writeLines (p : Nat) (x : FabHeader) (off : Nat) : List (List Byte) → State → State
  | [], s => fireArrival x s
  | bs :: cs :: r, s =>
    if x.dsp ≠ 0 ∧ (x.dst + off) % 128 = 0 then
      match writeArrival p x off (bs ++ cs) s with
      | (.ok s, _, _) => writeLines p x (off + 128) r s
      | (.error c, _, s) => sendNotice x c s
    else
      match writeArrival p x off bs s with
      | (.ok s, _, _) => writeLines p x (off + 64) (cs :: r) s
      | (.error c, _, s) => sendNotice x c s
  | [bs], s =>
    match writeArrival p x off bs s with
    | (.ok s, _, _) => fireArrival x s
    | (.error c, _, s) => sendNotice x c s

/-- The lines of `n` units of 64 B. -/
def linesOf : Nat → List Byte → List (List Byte)
  | 0, _ => []
  | n + 1, bs => bs.take 64 :: linesOf n (bs.drop 64)

/-! Scheduled delivery (R301, R302). -/

/-- The position in the traverse's list of steps `n` after the current one, or before it. -/
def stepAfter (t : Traverse) (i : Nat) : Nat → Nat
  | 0 => i
  | n + 1 => stepAfter t (if i + 1 < t.steps.length then i + 1 else t.loopStep) n
/-- The step before step `i`, where there is one. -/
def stepBefore (t : Traverse) (i : Nat) : Nat := if i = 0 then t.steps.length - 1 else i - 1

/-- BUDGET of a step. -/
def budgetOf (t : Traverse) (i : Nat) : Nat := (t.steps[i]?.map (·.budget)).getD 0
/-- Budgets of the `n` steps before step `i`. -/
def budgetsBefore (t : Traverse) : Nat → Nat → Nat
  | 0, _ => 0
  | n + 1, i => budgetOf t (stepBefore t i) + budgetsBefore t n (stepBefore t i)
/-- Budgets of `n` steps from step `i` on. -/
def budgetsFrom (t : Traverse) : Nat → Nat → Nat
  | 0, _ => 0
  | n + 1, i => budgetOf t i + budgetsFrom t n (stepAfter t i 1)

/-- The cycle on which step-clock cycle `n` of the step that the stamp names falls, counted continuously across the
steps between (R301). Stamps up to eight steps away are told apart. -/
def stampCycle (s : State) (p : Nat) (stamp n : Nat) : Nat :=
  let x := s.part p
  let base := x.stepStart + x.stopped
  match x.trv with
  | none => base + n
  | some t =>
    let ahead := (stamp + 65536 - curStep s p % 65536) % 65536
    if ahead = 0 then base + n
    else if ahead ≤ 8 then base + budgetsFrom t ahead (curStep s p) + n
    else base + n - budgetsBefore t (min 8 (65536 - ahead)) (curStep s p)

/-- The cycle on which a waiting line is written, `none` while the receiver's step clock stands before it (R180, R301); at once
where the partition has stopped (R302). -/
def Delivery.dueAt (s : State) (d : Delivery) : Option Nat :=
  let c := stampCycle s d.part d.hdr.stampStep d.slot
  if !partRunning s d.part then some 0
  else
    match (s.part d.part).stoppedAt with
    | some e => if e ≤ c then none else some c
    | none => some c

/-- Units that wait in a link's elastic buffer. -/
def elasticUnits (s : State) (l : Nat) : Nat := s.deliveries.countP fun d => d.link == l && d.arrived && d.data != []

/-- SLOT_LATE, once per link per step (R191). -/
def slotLate (p l : Nat) (s : State) : State :=
  if !partRunning s p || (s.part p).slotLate.contains l then s
  else reportBreak p 8 0xF 0xFFFF (srcLink l) (s.updPart p fun x => { x with slotLate := l :: x.slotLate })

/-- Whether `d` belongs to the same transfer as `x`. -/
def sameTransfer (l : Nat) (x : FabHeader) (d : Delivery) : Bool :=
  d.link == l && d.hdr.srcDev == x.srcDev && d.hdr.srcPart == x.srcPart && d.hdr.srcTile == x.srcTile &&
    d.hdr.srcUnit == x.srcUnit && d.hdr.stampStep == x.stampStep && d.hdr.start == x.start

/-- A line written, `late` or not, and its signal where it is added now; a line that fails drops the rest of its transfer. -/
def deliver (d : Delivery) (late sig : Bool) (s : State) : State :=
  if d.data = [] then (if sig then fireArrival d.hdr s else s)
  else
    match writeArrival d.part d.hdr 0 d.data s with
    | (.ok s, slow, _) =>
      let late := late || (slow && partRunning s d.part)
      let s := if late then rsat s .fab (rFabLinkschl d.link) 63 32 1 else s
      if !sig then s
      else
        let s := fireArrival d.hdr s
        if late && d.hdr.len == some 0 then slotLate d.part d.link s else s
    | (.error c, _, s) =>
      sendNotice d.hdr c { s with deliveries := s.deliveries.filter fun e => !sameTransfer d.link d.hdr e }

/-- L of Table FAB-3 for a transfer that has come this far (R301): the receive segment, the destination's, the lines and the
elastic allowance are added. -/
def fixedLatency (s : State) (x : FabHeader) (len : Nat) : Nat :=
  let t := bitsOf x.dst 30 22
  x.latency + 300 + (if x.dsp = 0 then passage s (t / 256) + 2 * rowEnd t + 8 else 312) + x.cycles * (len + 1) + 8

/-- The lines of a scheduled transfer from line `i` on, one unit time apart on the link, each with its step-clock cycle
s + L - k × (LEN - i); the last one carries the signal. -/
def sendLines (l p len lat unit t0 : Nat) (x : FabHeader) (i : Nat) : List (List Byte) → List Delivery
  | [] => []
  | bs :: r =>
    let y := { x with dst := x.dst + 64 * i, len := some (len - i), signal := if i = len then x.signal else none }
    ⟨l, p, y, bs, t0 + unit * (i + 1), x.start + lat - x.cycles * (len - i), false⟩ :: sendLines l p len lat unit t0 x (i + 1) r

/-- A scheduled transfer comes in on link `l` behind what the link still carries (R302). -/
def arriveLines (l p len : Nat) (x : FabHeader) (lines : List (List Byte)) (s : State) : State :=
  let unit := unitCycles s l
  let k := s.link l
  let t0 := max s.cyc k.inFree
  { s.setLink l { k with inFree := t0 + unit * (lines.length + 1) } with
    deliveries := s.deliveries ++ sendLines l p len (fixedLatency s x len) unit t0 x 0 lines }

/-- An arrival that has passed its checks. -/
def takeArrival (l p : Nat) (x : FabHeader) (data : List Byte) (s : State) : State :=
  match x.len with
  | none => fireArrival x s
  | some len =>
    let lines := linesOf (data.length / 64) data
    if x.managed || !partRunning s p then
      writeLines p (if lines.length = len + 1 then x else { x with signal := none }) 0 lines s
    else arriveLines l p len x lines s

/-- FABRIC_ARRIVAL (R295, R297, R301 to R303): forwarded, refused, or delivered. The buffer that a managed transfer holds is free
once it is written. -/
def execFabricArrival (l : Fin 48) (x : FabHeader) (data : List Byte) (s : State) : Host.Outcome State Fault Refusal :=
  let src : Option (Nat × Bool) := if x.managed then some (l.val, x.vc1) else none
  if x.dstDev.toNat ≠ devId s then .next (forward src (.xfer x data) s)
  else
    let p := arrivalPart s x
    let s := freeUnits src (1 + data.length / 64) s
    match arrivalBad s p x, p with
    | some c, _ => .next (sendNotice x c (rsat s .fab rFabDropcnt 63 32 1))
    | none, some p => .next (takeArrival l p x data s)
    | none, none => .next s

/-- What happens next on a link, and when: a line arrives, or one that waits is written. Of two on one cycle a write comes
first, and otherwise the one that came in first. -/
def nextDelivery (s : State) (l : Nat) : Option (Nat × Delivery) :=
  s.deliveries.foldl (init := none) fun m d =>
    if d.link ≠ l then m
    else
      match if d.arrived then d.dueAt s else some d.arrive, m with
      | none, _ => m
      | some c, none => some (c, d)
      | some c, some (b, e) => if c < b ∨ (c = b ∧ d.arrived ∧ !e.arrived) then some (c, d) else m

/-- A line arrives (R302): one after its cycle is written at once and late; one that finds the elastic buffer of 256 units full
is written at once, its signal still waiting; another waits. One for a partition that has stopped is written and signalled. -/
def arriveLine (d : Delivery) (s : State) : State :=
  if !partRunning s d.part then deliver d false true s
  else if (match d.dueAt s with | some c => decide (c < d.arrive) | none => false) then deliver d true true s
  else if elasticUnits s d.link < 256 then { s with deliveries := s.deliveries ++ [{ d with arrived := true }] }
  else
    let s := deliver d false false (rsat s .fab (rFabLinkschl d.link) 31 0 1)
    if d.hdr.signal.isSome then { s with deliveries := s.deliveries ++ [{ d with data := [], arrived := true }] } else s

/-- Lines of a link arrive up to the next one written on its cycle, or its signal added; at most `n` of them. -/
def runDelivery (l : Nat) : Nat → State → State
  | 0, s => s
  | n + 1, s =>
    match nextDelivery s l with
    | none => s
    | some (c, d) =>
      let s := { s.upTo c with deliveries := s.deliveries.erase d }
      if d.arrived then deliver d false true s else runDelivery l n (arriveLine d s)

/-- SCHEDULED_DELIVERY (R301, R302): the next line or signal of a link reaches its delivery cycle. -/
def execScheduledDelivery (l : Fin 48) (s : State) : Host.Outcome State Fault Refusal :=
  .next (runDelivery l (s.deliveries.length + 1) s)

/-- FAILURE_NOTICE (R295, R303): one for another device is forwarded in the managed class. -/
def execFailureNotice (x : NoticeArrival) (s : State) : Host.Outcome State Fault Refusal :=
  let n := x.notice
  let src : Option (Nat × Bool) := some (x.link.val, n.vc1)
  if n.dst.toNat = devId s then .next (takeNotice n (freeUnits src 1 s))
  else .next (forward src (.notice n) s)

/-- MESH_RESEND (R386): logged by the receiving tile, MESH_LATE where it is late, and the tile's retirement at the
second within 1 ms. -/
def execMeshResend (h : Fin 544) (m : MeshResend) (s : State) : Host.Outcome State Fault Refusal :=
  let s := logEvent (srcTile h) .meshResend 0 s
  let s :=
    match m.part, m.late, logOf s h with
    | some p, true, some t => reportBreakRunning p 0x0D 0xF t (srcTile h) s
    | some p, true, none => reportBreakRunning p 0x0D 0xF 0xFFFF (srcTile h) s
    | _, _, _ => s
  let bad := (s.tile h).meshBad
  let again := bad.has m.link && decide (s.cyc ≤ SMap.get 0 bad m.link + cycPerMs)
  let s := s.updTile h fun x => { x with meshBad := SMap.put m.link.val s.cyc x.meshBad }
  .next (if again then retireTile h s else s)

end Sys2Proof.Machine
end

