-- ==== Sys2Proof/Machine/Upkeep.lean ====
section
/-! DEFINITION. Upkeep of the memories: scrub, retirement, injection, drip counters, fills and margins (R198, R222 to
R238). -/
namespace Sys2Proof.Machine

/-- Whether the PLL of a cluster is off (R414). -/
def pllOff (s : State) (r : Nat) : Bool := !(rg s .clk rClkPll).bit r
/-- Who writes the window of a physical tile (R315). -/
def tileOwner (s : State) (h : Nat) : Admit := .owner (partOfCluster s (clusterOfPhys h))

/-! Scrub. -/

/-- The base addresses of codewords of a memory with a stored error pattern or poison that `keep` keeps, rising. -/
def badWords (s : State) (i : MemId) (keep : Nat → Bool) : List Nat :=
  let e := SMap.get {} s.ecc i.key
  ((e.pats.map (·.1) ++ e.poison).foldl (fun m a => SMap.put a () m) ([] : SMap Unit)).map (·.1) |>.filter keep

/-- The codeword at `a` rewritten with its corrected value (R222, R232). -/
def cleanWord (i : MemId) (a : Nat) (s : State) : State :=
  let e := SMap.get {} s.ecc i.key
  { s with ecc := SMap.put i.key { e with pats := SMap.drop a e.pats } s.ecc }

/-- Codewords rewritten as a copy or a scrub meets them: corrected ones are written back and count in the drip
counter; `bad` says what an uncorrectable one does. -/
def rewriteWords (i : MemId) (bad : Nat → Scrub × State → Scrub × State) (ws : List Nat) (x : Scrub × State) : Scrub × State :=
  ws.foldl (init := x) fun (p, s) a =>
    match eccCheck s i a with
    | .corrected =>
      ({ p with corr := p.corr + 1 },
        dripAdd (memDrip i a) (memSrc i) (memHolder s i a) 1 (cleanWord i a s))
    | .bad => bad a (p, s)
    | _ => (p, s)

/-- An uncorrectable codeword that a scrub pass finds: counted, the first noted, the first sixteen logged. -/
def scrubBad (i : MemId) (a : Nat) (x : Scrub × State) : Scrub × State :=
  let kind := match i with | .slice _ => 0 | .store _ => 1 | .stack _ => 2 | .ls _ => 3
  let p := x.1
  ({ p with unc := p.unc + 1, first := if p.unc = 0 then a else p.first },
    if p.unc < 16 then logEvent (memSrc i) .eccUncorrected (kind + 2 ^ 8 * a) x.2 else x.2)

/-- The bytes from `lo` to below `hi` scrubbed. -/
def scrubBytes (i : MemId) (lo hi : Nat) (p : Scrub) (s : State) : Scrub × State :=
  rewriteWords i (scrubBad i) (badWords s i fun a => decide (lo ≤ a ∧ a < hi)) (p, s)

/-- A copy of codewords (R222, R234, R235): correctable ones are corrected, others stay as they are. -/
def copyWords (i : MemId) (keep : Nat → Bool) (s : State) : State :=
  (rewriteWords i (fun _ x => x) (badWords s i keep) ({}, s)).2

/-- First byte and end of the pass that TILE_SL_SCRUB names. -/
def sliceRange (s : State) (h : Nat) : Nat × Nat :=
  let b := rf s (.tile h) rTileSlScrub 63 46
  (b * 1024, (b + rf s (.tile h) rTileSlScrub 45 28 + 1) * 1024)
/-- First byte and end of the pass that MEMC_SCRUB names. -/
def stackRange (s : State) (k : Nat) : Nat × Nat :=
  let b := rf s (.memc k) rMemcScrub 63 40
  (stackBase k + b * 4096, stackBase k + (b + rf s (.memc k) rMemcScrub 39 16 + 1) * 4096)

/-- The cycle on which the next refresh slot of a physical tile starts in the running epoch, if one is left (R198). -/
def nextSlot (s : State) (h : Nat) : Option Nat :=
  let r := clusterOfPhys h
  let after := match (s.tile h).lastSlot with | some c => c + 1 | none => 0
  ((List.range 16).map fun k => s.markCyc + k * 512).find? fun c => decide (after ≤ c) && slotStarts s r c

/-- A refresh slot taken: the next row of every bank is refreshed, spare rows included, and time stands at its end. -/
def takeSlot (h c : Nat) (s : State) : State :=
  (s.upTo (c + 64)).updTile h fun y => { y with refreshRow := (y.refreshRow + 1) % 4128, lastSlot := some c }

/-- SLICE_REFRESH_SLOT (R198, R205, R233, R234): the next row is refreshed; the maintenance window serves a retirement's
copy before scrub, which reads one row; in a cluster whose PLL is off it is idle. -/
def execSliceRefreshSlot (h : Fin 544) (s : State) : Host.Outcome State Fault Refusal :=
  match nextSlot s h with
  | none => .next s
  | some c =>
    let s := takeSlot h c s
    let x := s.tile h
    if pllOff s (clusterOfPhys h) then .next s
    else if x.rowret.isSome && !x.rowCopied then .next (s.updTile h fun y => { y with rowCopied := true })
    else if rf s (.tile h) rTileSlScrubstat 63 62 != 1 then .next s
    else
      let (_, hi) := sliceRange s h
      if hi ≤ x.scrub.next then .next s
      else
        let (p, s) := scrubBytes (.slice h) x.scrub.next (x.scrub.next + 1024) x.scrub s
        .next (s.updTile h fun y => { y with scrub := { p with next := x.scrub.next + 1024 } })

/-- A pass starts now. -/
def newPass (s : State) (lo : Nat) : Scrub := { started := s.cyc, next := lo }

/-- Whether a pass runs or waits for PERIOD. -/
def slPass (s : State) (h : Nat) : Bool := rf s (.tile h) rTileSlScrubstat 63 62 != 0
/-- Whether a stack pass runs or waits. -/
def memcPass (s : State) (k : Nat) : Bool := rf s (.memc k) rMemcScrubstat 63 62 != 0

/-- A write of TILE_SL_SCRUB (R232). -/
def wrTileSlScrub (a : Acc) (h : Nat) (v : Word) (s : State) : State :=
  hostWrite a (.tile h) rTileSlScrub dTileSlScrub (tileOwner s h) v
    (fun x s => firstOf [
      (x.v.bit 0 && decide (262144 < x.new.field 63 46 + x.new.field 45 28 + 1), .outOfRange),
      (slPass s h && (x.new != x.old || x.v.bit 0), .wrongState),
      (x.v.bit 0 && pllOff s (clusterOfPhys h), .wrongState)])
    (fun x s =>
      if x.v.bit 1 then rput s (.tile h) rTileSlScrubstat 63 62 0
      else if x.v.bit 0 then
        (rput s (.tile h) rTileSlScrubstat 63 62 1).updTile h fun y => { y with scrub := newPass s (sliceRange s h).1 }
      else s) s

/-- SL_SCRUB_START (R232). -/
def execSlScrubStart (a : Acc) (h : Fin 544) (v : Word) (s : State) : Host.Outcome State Fault Refusal :=
  .next (wrTileSlScrub a h (v ||| 1) s)
/-- SL_SCRUB_STOP (R232). -/
def execSlScrubStop (a : Acc) (h : Fin 544) (v : Word) (s : State) : Host.Outcome State Fault Refusal :=
  .next (wrTileSlScrub a h (v ||| 2) s)

/-- A write of MEMC_SCRUB (R232). -/
def wrMemcScrub (a : Acc) (k : Nat) (v : Word) (s : State) : State :=
  hostWrite a (.memc k) rMemcScrub dMemcScrub .steward v
    (fun x s => firstOf [
      (x.v.bit 0 && decide (stackSize k < (x.new.field 63 40 + x.new.field 39 16 + 1) * 4096), .outOfRange),
      (memcPass s k && (x.new != x.old || x.v.bit 0), .wrongState)])
    (fun x s =>
      if x.v.bit 1 then rput s (.memc k) rMemcScrubstat 63 62 0
      else if x.v.bit 0 then
        (rput s (.memc k) rMemcScrubstat 63 62 1).setStack k { s.stack k with scrub := newPass s (stackRange s k).1, waived := [] }
      else s) s

/-- MEMC_SCRUB_START (R232). -/
def execMemcScrubStart (a : Acc) (k : Fin 8) (v : Word) (s : State) : Host.Outcome State Fault Refusal :=
  .next (wrMemcScrub a k (v ||| 1) s)
/-- MEMC_SCRUB_STOP (R232). -/
def execMemcScrubStop (a : Acc) (k : Fin 8) (v : Word) (s : State) : Host.Outcome State Fault Refusal :=
  .next (wrMemcScrub a k (v ||| 2) s)

/-- The cores of grotto stack `k` whose bank groups hold bytes from `lo` to `hi` of the stack: all of them from 4 MiB on
(R239, R241). -/
def coresIn (k lo hi : Nat) : List Nat :=
  if lo + 0x400000 ≤ hi then (List.range 128).map ((k - 4) * 128 + ·)
  else (List.range ((hi - lo + 4095) / 4096)).map fun j => coreOf k (lo + 4096 * j)
/-- The cores whose bank groups a running scrub pass or retirement of grotto stack `k` has still to reach, with the cycle on
which it started. -/
def maintained (s : State) (k : Nat) : List (Nat × Nat) :=
  let x := s.stack k
  if k < 4 then []
  else
    (if rf s (.memc k) rMemcScrubstat 63 62 = 1 then (coresIn k x.scrub.next (stackRange s k).2).map (·, x.scrub.started) else []) ++
      (match x.bankret with | some (ch, bank) => [((k - 4) * 128 + ch / 2 * 8 + bank / 4, x.copyFrom)] | none => [])
/-- Since when maintenance of stack `k` waits for core `c`, which is READY (R257). -/
def maintenanceWait (s : State) (k c : Nat) : Option Nat :=
  if (s.grotto c).st = .ready ∧ !(s.stack k).waived.contains c then ((maintained s k).find? fun e => e.1 == c).map (·.2)
  else none
/-- Whether a scrub pass (`scrub`), or a retirement, of stack `k` waits for a READY core. -/
def maintenanceWaits (s : State) (k : Nat) (scrub : Bool) : Bool :=
  let x := s.stack k
  (maintained (if scrub then s.setStack k { x with bankret := none } else rput s (.memc k) rMemcScrubstat 63 62 0) k).any
    fun e => (maintenanceWait s k e.1).isSome

/-- SCRUB_PASS_DONE (R232, R233): the end of a slice's pass, all of whose rows windows have served, or the rest of a stack's;
its summary and the memory event vector. A pass that has still to reach the bank group of a READY core waits (R257). -/
def execScrubPassDone (x : ScrubTarget) (s : State) : Host.Outcome State Fault Refusal :=
  match x with
  | .slice h =>
    if rf s (.tile h) rTileSlScrubstat 63 62 ≠ 1 ∨ (s.tile h).scrub.next < (sliceRange s h).2 then .next s
    else
      let p := (s.tile h).scrub
      let st := if rf s (.tile h) rTileSlScrub 15 8 = 0 then 0 else 2
      .next (raisePF0 2 (rset s (.tile h) rTileSlScrubstat (BitVec.ofNat 64
        (st * 2 ^ 62 + p.first / 64 * 2 ^ 40 + min p.unc 0xFFFF * 2 ^ 24 + min p.corr 0xFFFFFF))))
  | .stack k =>
    if rf s (.memc k) rMemcScrubstat 63 62 ≠ 1 ∨ maintenanceWaits s k true then .next s
    else
      let (p, s) := scrubBytes (.stack k) (s.stack k).scrub.next (stackRange s k).2 (s.stack k).scrub s
      let st := if rf s (.memc k) rMemcScrub 15 8 = 0 then 0 else 2
      let s := s.setStack k { s.stack k with scrub := p }
      let s := rset s (.memc k) rMemcScrubstat (BitVec.ofNat 64
        (st * 2 ^ 62 + min p.unc 0xFFFF * 2 ^ 32 + min p.corr 0xFFFFFFFF))
      .next (raisePF0 2 (rset s (.memc k) rMemcScrubfirst (BitVec.ofNat 64
        (if p.unc = 0 then 0 else 2 ^ 63 + (p.first - stackBase k)))))

/-- FCLK cycles of an hour at 1.5 GHz. -/
def cycPerHour : Nat := 3600 * 1000 * cycPerMs

/-- SCRUB_PERIOD (R232): PERIOD hours after its start, the next pass over the same range starts; while the cluster's PLL is
off no slice scrub starts (R205). -/
def execScrubPeriod (x : ScrubTarget) (s : State) : Host.Outcome State Fault Refusal :=
  match x with
  | .slice h =>
    if rf s (.tile h) rTileSlScrubstat 63 62 ≠ 2 ∨ pllOff s (clusterOfPhys h) then .next s
    else
      let s := s.upTo ((s.tile h).scrub.started + rf s (.tile h) rTileSlScrub 15 8 * cycPerHour)
      .next ((rput s (.tile h) rTileSlScrubstat 63 62 1).updTile h fun y =>
        { y with scrub := newPass s (sliceRange s h).1 })
  | .stack k =>
    if rf s (.memc k) rMemcScrubstat 63 62 ≠ 2 then .next s
    else
      let s := s.upTo ((s.stack k).scrub.started + rf s (.memc k) rMemcScrub 15 8 * cycPerHour)
      .next ((rput s (.memc k) rMemcScrubstat 63 62 1).setStack k
        { s.stack k with scrub := newPass s (stackRange s k).1, waived := [] })

/-! Retirement. -/

/-- The bank of a slice (LAYER × 16 + BANK) that a retirement word names. -/
def rowBank (w : Word) : Nat := w.field 33 32 * 16 + w.field 31 28
/-- The row that it names: bank × 4,096 + ROW. -/
def rowKey (w : Word) : Nat := rowBank w * 4096 + w.field 27 16

/-- A write of TILE_SL_ROWRET (R234, R236). -/
def wrTileSlRowret (a : Acc) (h : Nat) (v : Word) (s : State) : State :=
  hostWrite a (.tile h) rTileSlRowret dTileSlRowret (tileOwner s h) v
    (fun x s => firstOf [(x.v.bit 63 && (x.old.field 59 58 == 1 || pllOff s (clusterOfPhys h)), .wrongState)])
    (fun x s =>
      if x.v.bit 63 then
        let used := SMap.get 0 (s.tile h).spareUsed (rowBank x.new)
        if used < 32 then
          let s := rput s (.tile h) rTileSlRowret 59 58 1
          s.updTile h fun y => { y with rowret := some (rowKey x.new), rowCopied := false, spareUsed := SMap.put (rowBank x.new) (used + 1) y.spareUsed }
        else
          rput (rput (rput s (.tile h) rTileSlRowret 59 58 3) (.tile h) rTileSlRowret 15 0 Code.spareExhausted.toNat)
            (.tile h) rTileSlRowret 53 48 0
      else s) s

/-- SL_ROWRET (R234). -/
def execSlRowret (a : Acc) (h : Fin 544) (v : Word) (s : State) : Host.Outcome State Fault Refusal :=
  .next (wrTileSlRowret a h (v ||| BitVec.ofNat 64 (2 ^ 63)) s)

/-- Whether a slice offset lies in the row with that key (Table MEM-1). -/
def inRow (key a : Nat) : Bool := bitsOf a 11 10 * 16 + bitsOf a 15 12 == key / 4096 && bitsOf a 27 16 == key % 4096

/-- SL_ROWRET_DONE (R234): at the end of the maintenance window that copies it, the row's offsets switch to the spare. The
window is that of the next slot, where no slot has served the copy yet; none comes while the PLL is off (R205). -/
def execSlRowretDone (h : Fin 544) (s : State) : Host.Outcome State Fault Refusal :=
  match (s.tile h).rowret with
  | none => .next s
  | some key =>
    let switch (s : State) : State :=
      let s := copyWords (.slice h) (inRow key) s
      let used := SMap.get 0 (s.tile h).spareUsed (key / 4096)
      let s := s.updTile h fun y =>
        { y with rowret := none, rowCopied := false, rowOnSpare := SMap.put key (used - 1) y.rowOnSpare }
      rput (rput (rput s (.tile h) rTileSlRowret 59 58 2) (.tile h) rTileSlRowret 15 0 0) (.tile h) rTileSlRowret 53 48
        (32 - used)
    if pllOff s (clusterOfPhys h) then .next s
    else if (s.tile h).rowCopied then .next (switch s)
    else
      match nextSlot s h with
      | none => .next s
      | some c => .next (switch (takeSlot h c s))

/-- Banks of a channel of stack `k` without the spare. -/
def stackBanks (k : Nat) : Nat := if k < 4 then 48 else 32
/-- Whether a channel's spare bank is unused. -/
def spareFree (s : State) (k ch : Nat) : Bool := SMap.get 0 (s.stack k).sparesUsed ch == 0
/-- SPARE of MEMC_BANKRET follows the channel that it names. -/
def renewSpare (k : Nat) (s : State) : State :=
  rput s (.memc k) rMemcBankret 49 49 (if spareFree s k (rf s (.memc k) rMemcBankret 28 24) then 1 else 0)

/-- A write of MEMC_BANKRET (R235, R236). -/
def wrMemcBankret (a : Acc) (k : Nat) (v : Word) (s : State) : State :=
  hostWrite a (.memc k) rMemcBankret dMemcBankret .steward v
    (fun x _ => firstOf [(decide (stackBanks k ≤ x.new.field 21 16), .outOfRange),
      (x.v.bit 63 && x.old.field 59 58 == 1, .wrongState)])
    (fun x s =>
      let ch := x.new.field 28 24
      renewSpare k (if x.v.bit 63 then
        if spareFree s k ch then
          (rput s (.memc k) rMemcBankret 59 58 1).setStack k
            { s.stack k with sparesUsed := SMap.put ch 1 (s.stack k).sparesUsed, bankret := some (ch, x.new.field 21 16), copyFrom := s.cyc, waived := [] }
        else
          logEvent (srcStack k) .spareExhausted 0
            (rput (rput s (.memc k) rMemcBankret 59 58 3) (.memc k) rMemcBankret 15 0 Code.spareExhausted.toNat)
      else s)) s

/-- BANKRET (R235). -/
def execBankret (a : Acc) (k : Fin 8) (v : Word) (s : State) : Host.Outcome State Fault Refusal :=
  .next (wrMemcBankret a k (v ||| BitVec.ofNat 64 (2 ^ 63)) s)

/-- BANKRET_DONE (R235): every row has been copied to the spare bank. The copy of a bank whose core is READY waits (R257). -/
def execBankretDone (k : Fin 8) (s : State) : Host.Outcome State Fault Refusal :=
  match (s.stack k).bankret with
  | none => .next s
  | some (ch, bank) =>
    if maintenanceWaits s k false then .next s else
    let s := copyWords (.stack k) (fun a => channelOf k a == ch && bankOf k a == bank) s
    let s := s.setStack k { s.stack k with bankret := none, retired := (s.stack k).retired ++ [(ch, bank)] }
    .next (rput (rput s (.memc k) rMemcBankret 59 58 2) (.memc k) rMemcBankret 15 0 0)

/-! Injection (R229). -/

/-- The 32-bit data word at `w` as it is stored, and the check bits of its codeword. -/
def rawWord (s : State) (i : MemId) (w : Nat) : Nat × Nat :=
  let z := cwSize s i w
  let c := w / z * z
  let e := SMap.get {} s.ecc i.key
  let p := SMap.get ⟨0, 0⟩ e.pats c
  let data := (memOf s i).readNat w 4 ^^^ ((p.dxor >>> (8 * (w % z))) % 2 ^ 32)
  let chk := if e.poison.contains c then Config.poisonCheck z else Config.checkWord z ((memOf s i).readNat c z) ^^^ p.cxor
  (data, chk)

/-- Whether a mapped tile is in use by a RUNNING traverse whose cluster is not paused. -/
def tileInUse (s : State) (h : Nat) : Bool :=
  match partOfCluster s (clusterOfPhys h) with
  | some p => (logOf s h).isSome && !clusterPaused s (clusterOfPhys h) && partRunning s p
  | none => false

/-- A write of TILE_INJADDR. -/
def wrTileInjaddr (a : Acc) (h : Nat) (v : Word) (s : State) : State :=
  hostWrite a (.tile h) rTileInjaddr dTileInjaddr (tileOwner s h) v
    (fun x s => firstOf [(x.new.bit 61 && x.new.field 27 22 != 0, .illegalValue),
      (tileInUse s h && (x.v.bit 63 || x.v.bit 62), .wrongState)])
    (fun x s =>
      if x.v.bit 62 then
        let (d, c) := rawWord s (if x.new.bit 61 then .store h else .slice h) (x.new.field 27 2 * 4)
        rset s (.tile h) rTileInjmask (BitVec.ofNat 64 (d + c % (if x.new.bit 61 then 2 ^ 8 else 2 ^ 32) * 2 ^ 32))
      else s) s

/-- A write of TILE_INJMASK. -/
def wrTileInjmask (a : Acc) (h : Nat) (v : Word) (s : State) : State :=
  hostWrite a (.tile h) rTileInjmask dTileInjmask (tileOwner s h) v
    (fun x s => firstOf [((rg s (.tile h) rTileInjaddr).bit 61 && x.new.field 63 40 != 0, .illegalValue)]) noAct s

/-- TILE_INJ_ARM (R229). -/
def execTileInjArm (a : Acc) (h : Fin 544) (v : Word) (s : State) : Host.Outcome State Fault Refusal :=
  .next (wrTileInjaddr a h (v ||| BitVec.ofNat 64 (2 ^ 63)) s)
/-- TILE_INJ_RAWRD (R229). -/
def execTileInjRawrd (a : Acc) (h : Fin 544) (v : Word) (s : State) : Host.Outcome State Fault Refusal :=
  .next (wrTileInjaddr a h (v ||| BitVec.ofNat 64 (2 ^ 62)) s)

/-- Whether a stack address lies in a range of a RUNNING partition. -/
def stackInUse (s : State) (k a : Nat) : Bool :=
  match rangeAt s k a with
  | some (p, _) => partRunning s p
  | none => false

/-- A write of MEMC_INJADDR. -/
def wrMemcInjaddr (a : Acc) (k : Nat) (v : Word) (s : State) : State :=
  hostWrite a (.memc k) rMemcInjaddr dMemcInjaddr .steward v
    (fun x s =>
      let w := stackBase k + x.new.field 35 2 * 4
      firstOf [(decide (stackSize k ≤ x.new.field 35 2 * 4), .illegalValue),
        (cwSize s (.stack k) w == 32 && x.new.field 61 60 != 0, .illegalValue),
        (stackInUse s k w && (x.v.bit 63 || x.v.bit 62), .wrongState)])
    (fun x s =>
      if x.v.bit 62 then
        let (d, c) := rawWord s (.stack k) (stackBase k + x.new.field 35 2 * 4)
        rset s (.memc k) rMemcInjmask (BitVec.ofNat 64 (d + (c >>> (32 * x.new.field 61 60)) % 2 ^ 32 * 2 ^ 32))
      else s) s

/-- A write of MEMC_INJMASK. -/
def wrMemcInjmask (a : Acc) (k : Nat) (v : Word) (s : State) : State :=
  hostWrite a (.memc k) rMemcInjmask dMemcInjmask .steward v noCheck noAct s

/-- MEMC_INJ_ARM (R229). -/
def execMemcInjArm (a : Acc) (k : Fin 8) (v : Word) (s : State) : Host.Outcome State Fault Refusal :=
  .next (wrMemcInjaddr a k (v ||| BitVec.ofNat 64 (2 ^ 63)) s)
/-- MEMC_INJ_RAWRD (R229). -/
def execMemcInjRawrd (a : Acc) (k : Fin 8) (v : Word) (s : State) : Host.Outcome State Fault Refusal :=
  .next (wrMemcInjaddr a k (v ||| BitVec.ofNat 64 (2 ^ 62)) s)

/-! Drip counters (R230, R231). -/

/-- The source and holder of a domain's reports where its threshold is lowered; a channel of a stack has many holders, and no
partition's vector is raised (the model's choice, log entry 93). -/
def domainReport (s : State) : DripDomain → Nat × Option Nat
  | .slice h | .store h => (srcTile h, partOfCluster s (clusterOfPhys h))
  | .channel k _ => (srcStack k, none)
  | .localStore k => (srcGrotto k, partOfGrotto s k)

/-- DRIP_LEAK (R230). -/
def execDripLeak (d : DripDomain) (s : State) : Host.Outcome State Fault Refusal :=
  let x := dripAt d
  let w := rg s x.blk x.cfg
  let n := rf s x.blk x.off (x.count + 7) x.count
  if w.field 31 16 ≠ 0 ∧ 0 < n ∧ n < w.field 7 0 then .next (rput s x.blk x.off (x.count + 7) x.count (n - 1)) else .next s

/-- COUNT and SPILL of a domain set to 0. -/
def dripClear (d : DripDomain) (s : State) : State :=
  let x := dripAt d
  rput (rput s x.blk x.off (x.count + 7) x.count 0) x.blk x.off (x.spill + 15) x.spill 0

/-- A write of TILE_DRIP. -/
def wrTileDrip (a : Acc) (h : Fin 544) (v : Word) (s : State) : State :=
  hostWrite a (.tile h) rTileDrip dTileDrip (tileOwner s h) v noCheck
    (fun x s =>
      let s := if x.v.bit 0 then dripClear (.slice h) s else s
      if x.v.bit 1 then dripClear (.store h) s else s) s
/-- A write of MEMC_DRIPc. -/
def wrMemcDrip (a : Acc) (k : Fin 8) (c : Fin 32) (v : Word) (s : State) : State :=
  hostWrite a (.memc k) (rMemcDripc c) dMemcDripc .steward v noCheck
    (fun x s => if x.v.bit 0 then dripClear (.channel k c) s else s) s
/-- A write of GRT_CDRIPk. -/
def wrGrtCdrip (a : Acc) (k : Fin 512) (v : Word) (s : State) : State :=
  hostWrite a (.grt (k / 128)) (rGrtCdripk (k % 128)) dGrtCdripk .steward v noCheck
    (fun x s => if x.v.bit 0 then dripClear (.localStore k) s else s) s

/-- SLCLR (R231). -/
def execSlclr (a : Acc) (h : Fin 544) (v : Word) (s : State) : Host.Outcome State Fault Refusal :=
  .next (wrTileDrip a h (v ||| 1) s)
/-- TSCLR (R231). -/
def execTsclr (a : Acc) (h : Fin 544) (v : Word) (s : State) : Host.Outcome State Fault Refusal :=
  .next (wrTileDrip a h (v ||| 2) s)
/-- MEMC_DRIP_CLR (R231). -/
def execMemcDripClr (a : Acc) (k : Fin 8) (c : Fin 32) (v : Word) (s : State) : Host.Outcome State Fault Refusal :=
  .next (wrMemcDrip a k c (v ||| 1) s)
/-- GRT_CDRIP_CLR (R231). -/
def execGrtCdripClr (a : Acc) (k : Fin 512) (v : Word) (s : State) : Host.Outcome State Fault Refusal :=
  .next (wrGrtCdrip a k (v ||| 1) s)

/-- A THRESH below the present COUNT of a domain sets COUNT to THRESH, as reaching it does (R231). -/
def lowerCount (d : DripDomain) (s : State) : State :=
  let x := dripAt d
  let thr := rf s x.blk x.cfg 7 0
  if thr < rf s x.blk x.off (x.count + 7) x.count then
    let (src, holder) := domainReport s d
    dripReached src holder (rput s x.blk x.off (x.count + 7) x.count thr)
  else s

/-- The domains whose thresholds a DRIPCFG register gives. -/
def domainsOf : DripBlock → List DripDomain
  | .tile h => [.slice h, .store h]
  | .memc k => (List.finRange 32).map fun c => .channel k c
  | .grt g => (List.range 128).map fun k => .localStore (Fin.ofNat 512 (g.val * 128 + k))

/-- A write of a DRIPCFG register (R231). -/
def wrDripcfg (a : Acc) (b : DripBlock) (v : Word) (s : State) : State :=
  let chk (x : Written) (_ : State) : Option Code := firstOf [(x.new.field 7 0 == 0, .illegalValue)]
  let act (_ : Written) (s : State) : State := (domainsOf b).foldl (fun s d => lowerCount d s) s
  match b with
  | .tile h => hostWrite a (.tile h) rTileDripcfg dTileDripcfg (tileOwner s h) v chk act s
  | .memc k => hostWrite a (.memc k) rMemcDripcfg dMemcDripcfg .steward v chk act s
  | .grt g => hostWrite a (.grt g) rGrtDripcfg dGrtDripcfg .steward v chk act s

/-- DRIPCFG_WRITE (R231). -/
def execDripcfgWrite (a : Acc) (b : DripBlock) (v : Word) (s : State) : Host.Outcome State Fault Refusal :=
  .next (wrDripcfg a b v s)

/-! Fills (R225). -/

/-- FILL_DONE (R224, R225): the storage holds zeros with valid check bits; of a range, the granules handed over. -/
def execFillDone (f : FillTarget) (s : State) : Host.Outcome State Fault Refusal :=
  if !s.bup.fills.contains f then .next s
  else
    let s := { s with bup := { s.bup with fills := s.bup.fills.filter (· != f) } }
    match f with
    | .cluster c =>
      .next ((List.range 17).foldl (init := s) fun s j =>
        let h := c.val * 17 + j
        rput (memFill (.slice h) 0 sliceBytes (memFill (.store h) 0 storeBytes s)) (.tile h) rTileSlState 0 0 0)
    | .range k r =>
      let w := rgEff s (.memc k) (rMemcRanger r)
      let mine (g : Nat × Nat) : Bool := g.1 == k.val && decide (w.field 9 0 ≤ g.2 ∧ g.2 < w.field 9 0 + w.field 41 32)
      let now := s.bup.handed.filter mine
      let s := { s with bup := { s.bup with handed := s.bup.handed.filter fun g => !mine g } }
      .next (now.foldl (fun s g => memFill (.stack k) (stackBase k + g.2 * 0x4000000) 0x4000000 s) s)

/-! Margins (R237, R238). -/

/-- Whether a margin sweep of stack `k` runs, during which accesses to it wait (R237). -/
def margining (s : State) (k : Nat) : Bool := (rg s (.memc k) rMemcMargctrl).bit 1

/-- Whether a partition that holds a range in stack `k` is RUNNING. -/
def stackRunning (s : State) (k : Nat) : Bool :=
  (List.range 64).any fun r =>
    match rangeEntry s k r with
    | some (p, _, _) => partRunning s p
    | none => false

/-- A write of MEMC_MARGCTRL (R237). -/
def wrMemcMargctrl (a : Acc) (k : Nat) (v : Word) (s : State) : State :=
  hostWrite a (.memc k) rMemcMargctrl dMemcMargctrl .steward v
    (fun x s => firstOf [(x.v.bit 0 && x.new.field 3 2 == 0, .illegalValue),
      (x.v.bit 0 && rf s .bup rBupState 47 44 != 6 && stackRunning s k, .wrongState)])
    (fun x s =>
      if x.v.bit 0 then
        (rput (rput s (.memc k) rMemcMargctrl 1 1 1) (.memc k) rMemcState 7 4 4).setStack k
          { s.stack k with margFrom := s.cyc }
      else s) s

/-- MARGIN_START (R237). -/
def execMarginStart (a : Acc) (k : Fin 8) (v : Word) (s : State) : Host.Outcome State Fault Refusal :=
  .next (wrMemcMargctrl a k (v ||| 1) s)

/-- One channel's result. -/
def noteMargin (k c kind : Nat) (m : Margin) (s : State) : State :=
  let timing := kind % 2 == 1
  let ref := decide (2 ≤ kind)
  let low := (timing && (decide (m.tright < 6) || decide (m.tleft < 6))) || (ref && (decide (m.vhi < 12) || decide (m.vlo < 12)))
  let s := rput (rput s (.memc k) (rMemcMarginc c) 63 63 1) (.memc k) (rMemcMarginc c) 62 62 (if low then 1 else 0)
  let s := if timing then
      rput (rput s (.memc k) (rMemcMarginc c) 15 8 m.tright) (.memc k) (rMemcMarginc c) 7 0 m.tleft else s
  let s := if ref then
      rput (rput s (.memc k) (rMemcMarginc c) 31 24 m.vhi) (.memc k) (rMemcMarginc c) 23 16 m.vlo else s
  if low then raisePF0 2 (logEvent (srcStack k) .memMarginLow c s) else s

/-- MARGIN_DONE (R238): the margins of the channels after the one retraining. -/
def execMarginDone (k : Fin 8) (ms : List Margin) (s : State) : Host.Outcome State Fault Refusal :=
  if rf s (.memc k) rMemcMargctrl 1 1 = 0 then .next s
  else
    let kind := rf s (.memc k) rMemcMargctrl 3 2
    let s := (ms.take 32).zipIdx.foldl (fun s x => noteMargin k x.2 kind x.1 s) s
    .next (rput (rput s (.memc k) rMemcMargctrl 1 1 0) (.memc k) rMemcState 7 4 3)

end Sys2Proof.Machine
end

