-- ==== Sys2Proof/Machine/Grotto.lean ====
section
/-! DEFINITION. Grotto cores: launches, refresh, ordinary accesses and their registers (R243 to R259). -/
namespace Sys2Proof.Machine

/-- Whether a core is active (Table GRT-2). -/
def Grotto.active (g : Grotto) : Bool :=
  match g.st with
  | .ready | .wait | .paused => true
  | .idle | .halted => false
/-- Active cores of grotto stack `g`. -/
def activeCores (s : State) (g : Nat) : Nat := s.grt.countP fun e => e.1 / 128 == g && e.2.active
/-- PEAK follows ACTIVE up. -/
def notePeak (g : Nat) (s : State) : State :=
  if rf s (.grt g) rGrtState 23 16 < activeCores s g then rput s (.grt g) rGrtState 23 16 (activeCores s g) else s
/-- An IDLE core whose launch counter exceeds LAUNCHES launches six grotto cycles later (R243). -/
def relaunch (k : Nat) (s : State) : State :=
  let g := s.grotto k
  if g.st = .idle ∧ g.launchDue = none ∧ g.launches.toNat < (SMap.get 0 g.cnt 0).toNat then
    s.setGrotto k { g with launchDue := some (s.cyc + 12) }
  else s
/-- Whether a core may launch: neither its partition nor the device is under reset. -/
def launchable (s : State) (k : Nat) : Bool :=
  match partOfGrotto s k with
  | some p => !partResetting s p
  | none => !s.bup.resets.contains .device

/-- The cycle on which core `k` launches, where one is due: it is IDLE, its launch counter exceeds LAUNCHES (R243). -/
def launchAt (s : State) (k : Nat) : Option Nat :=
  let g := s.grotto k
  if g.st = .idle ∧ launchable s k ∧ g.launches.toNat < (SMap.get 0 g.cnt 0).toNat then g.launchDue else none

/-- A core of a lower number launches on the same grotto cycle, and is admitted first (R247). -/
def launchesFirst (s : State) (k due : Nat) : Bool :=
  (List.range (k % 128)).any fun j =>
    match launchAt s (k / 128 * 128 + j) with
    | some d => d / 2 == due / 2
    | none => false

/-- GROTTO_LAUNCH (R243, R245, R247). -/
def execGrottoLaunch (k : Fin 512) (s : State) : Host.Outcome State Fault Refusal :=
  let g := s.grotto k
  match launchAt s k with
  | none => .next s
  | some due =>
    if launchesFirst s k due then .next s
    else
      let s := s.upTo due
      let n := g.launches + 1
      let s := s.setGrotto k { g with launches := n, launchDue := none }
      match g.img with
      | none => .next (haltGrotto k .wrongState s)
      | some i =>
        if serviceMode s (k.val / 128) && decide (64 ≤ activeCores s (k.val / 128)) then
          .next (haltGrotto k .grottoBusy s)
        else
          .next (notePeak (k.val / 128) (s.setGrotto k
            { s.grotto k with
              st := .ready, pc := i.loadOff + i.entry
              g := SMap.put 1 (BitVec.ofNat 32 n.toNat) (SMap.put 2 (BitVec.ofNat 32 k.val) (s.grotto k).g) }))

/-- GROTTO_WAKE: a core whose wait was met issues again twelve FCLK cycles after the write (R178). -/
def execGrottoWake (k : Fin 512) (s : State) : Host.Outcome State Fault Refusal :=
  let g := s.grotto k
  match g.st, g.wait with
  | .wait, .counter _ _ _ (some m) =>
    .next ((s.upTo (m + 12)).setGrotto k { g with st := .ready, wait := .none })
  | _, _ => .next s

/-- A grotto core at the end of its program (R244): IDLE, its owed operations run, a further launch follows. -/
def endGrotto (k : Nat) (s : State) : State :=
  relaunch k (s.setGrotto k { (s.grotto k).rest s.cyc with st := .idle })

/-- GROTTO_REFRESH_DUE (R250, R251): at once in an IDLE or HALTED core's bank group, deferred in a READY one, run
while a core waits. A READY core that owes nine has paused by the time that another falls due. -/
def execGrottoRefreshDue (k : Fin 512) (s : State) : Host.Outcome State Fault Refusal :=
  let g := s.grotto k
  match g.st with
  | .ready =>
    if g.owed < 9 then .next (s.setGrotto k { g with owed := g.owed + 1 })
    else .next (s.setGrotto k { Grotto.rest { g with owed := g.owed + 1 } s.cyc with st := .paused })
  | .wait => .next (s.setGrotto k (Grotto.rest { g with owed := g.owed + 1 } s.cyc))
  | .paused => .next (s.setGrotto k { g with owed := g.owed + 1 })
  | .idle | .halted =>
    if g.running = 0 then .next (s.setGrotto k { g with running := 2, opFrom := s.cyc })
    else .next (s.setGrotto k { g with owed := g.owed + 1 })

/-- GROTTO_PAUSE (R251): a READY core that owes nine operations pauses at its next instruction boundary. -/
def execGrottoPause (k : Fin 512) (s : State) : Host.Outcome State Fault Refusal :=
  let g := s.grotto k
  if g.st = .ready ∧ 8 < g.owed then
    let s := s.upTo (boardOf (.grotto k) s).next
    .next (s.setGrotto k { g.rest s.cyc with st := .paused })
  else .next s

/-- GROTTO_REFRESH_OP_DONE (R250 to R252): 48 grotto cycles after its start an operation ends; the next owed one follows
unless the core is READY; a pause ends with OWED at 0. -/
def execGrottoRefreshOpDone (k : Fin 512) (s : State) : Host.Outcome State Fault Refusal :=
  let g := s.grotto k
  if g.running = 0 then .next s
  else
    let s := s.upTo (g.opFrom + 96)
    let owed := if g.running = 2 then g.owed else g.owed - 1
    let more := if g.st ≠ .ready ∧ 0 < owed then 1 else 0
    let st := if g.st = .paused ∧ owed = 0 then .ready else g.st
    .next (s.setGrotto k { g with owed := owed, running := more, opFrom := g.opFrom + 96, st := st })

/-- A service episode of `n` units at the boundary of a READY core: 16 grotto cycles and one for each unit pass before its
next instruction (R254). -/
def serveEpisode (k : Fin 512) (n : Nat) (s : State) : State :=
  if (s.grotto k).st = .ready then
    let b := boardOf (.grotto k) s
    { s with boards := SMap.put (unitKey (.grotto k)) { b with next := max s.cyc b.next + 2 * (16 + n) } s.boards }
  else s

/-- ORDINARY_ACCESS_SERVICE (R254 to R256): the units queued at a bank group are served; at a boundary of a READY
core they cost it 16 grotto cycles and one for each, and an episode with an unplanned unit is counted and reported. -/
def execOrdinaryAccessService (k : Fin 512) (s : State) : Host.Outcome State Fault Refusal :=
  let g := s.grotto k
  let n := g.queue.length
  let s' := serveEpisode k n (s.setGrotto k { g with queue := [] })
  if n = 0 then .next s
  else if g.st = .ready ∧ g.queue.any (fun x => !x.planned) then
    let st := k.val / 128
    let s' := rsat (rsat s' (.grt st) rGrtIntrude 63 32 (16 + n)) (.grt st) rGrtIntrude 31 0 1
    match partOfGrotto s' k with
    | some p => .next (if serviceMode s st then reportBreak p 0x0A 0xB k (srcStack (4 + st)) s' else s')
    | none => .next s'
  else .next s'

/-- SCRUB_WAIT_EXPIRY (R257): a maintenance unit that has waited 10 ms for a READY core is served at the next
boundary as an unplanned access; the pass or copy waits for that core no longer. The wait is taken from the start of the
pass or copy (log entry 95). -/
def execScrubWaitExpiry (k : Fin 512) (s : State) : Host.Outcome State Fault Refusal :=
  let i := 4 + k.val / 128
  match maintenanceWait s i k with
  | none => .next s
  | some since =>
    let s := s.upTo (since + 10 * cycPerMs)
    let g := s.grotto k
    let s := s.setGrotto k { g with queue := (g.queue ++ [BankUnit.mk false true s.cyc]).take 128 }
    .next (s.setStack i { s.stack i with waived := k.val :: (s.stack i).waived })

/-! Registers of the GRT block, written through the steward's PF0 (R321). -/

/-- A write of GRT_CCTRLk: RESTART needs a HALTED core, LAUNCH the WINDOW mode (R246, R259). -/
def wrGrtCctrl (a : Acc) (k : Nat) (v : Word) (s : State) : State :=
  hostWrite a (.grt (k / 128)) (rGrtCctrlk (k % 128)) dGrtCctrlk .steward v
    (fun x s => firstOf [(x.v.bit 0 && (s.grotto k).st != .halted, .wrongState),
      (x.v.bit 2 && serviceMode s (k / 128), .wrongState)])
    (fun x s =>
      let s := if x.v.bit 0 then
          relaunch k (s.setGrotto k { (s.grotto k).rest s.cyc with st := .idle, code := 0 })
        else s
      if x.v.bit 2 then applyAdd (grottoCnt k 0) 1 s else s) s

/-- LAUNCH (R259). -/
def execLaunch (a : Acc) (k : Fin 512) (v : Word) (s : State) : Host.Outcome State Fault Refusal :=
  .next (wrGrtCctrl a k (v ||| 4) s)
/-- GRT_RESTART (R246). -/
def execGrtRestart (a : Acc) (k : Fin 512) (v : Word) (s : State) : Host.Outcome State Fault Refusal :=
  .next (wrGrtCctrl a k (v ||| 1) s)

/-- Whether a partition that owns a core of grotto stack `g` is RUNNING. -/
def stackOwnerRunning (s : State) (g : Nat) : Bool :=
  (List.range 128).any fun k =>
    match partOfGrotto s (g * 128 + k) with
    | some p => partRunning s p
    | none => false

/-- A write of GRT_MODE (R249). -/
def wrGrtMode (a : Acc) (g : Nat) (v : Word) (s : State) : State :=
  hostWrite a (.grt g) rGrtMode dGrtMode .steward v
    (fun x s => firstOf [(!x.old.bit 0 && x.new.bit 0 && stackOwnerRunning s g, .wrongState),
      (x.old.bit 0 && !x.new.bit 0 && decide (64 < activeCores s g), .wrongState)])
    (fun x s => if x.v.bit 1 then rput s (.grt g) rGrtState 23 16 (activeCores s g) else s) s

/-- GRT_MODE (R249). -/
def execGrtMode (a : Acc) (g : Fin 4) (v : Word) (s : State) : Host.Outcome State Fault Refusal :=
  .next (wrGrtMode a g v s)
/-- PEAKCLR (R249). -/
def execPeakclr (a : Acc) (g : Fin 4) (v : Word) (s : State) : Host.Outcome State Fault Refusal :=
  .next (wrGrtMode a g (v ||| 2) s)

/-- A write of GRT_OWNk: staged fields (R324). -/
def wrGrtOwn (a : Acc) (k : Nat) (v : Word) (s : State) : State :=
  hostWrite a (.grt (k / 128)) (rGrtOwnk (k % 128)) dGrtOwnk .steward v noCheck noAct s
/-- A write of GRT_ERRCODE. -/
def wrGrtErrcode (a : Acc) (g : Nat) (v : Word) (s : State) : State :=
  hostWrite a (.grt g) rGrtErrcode dGrtErrcode .steward v noCheck (clearErr (.grt g) rGrtErrcode) s

end Sys2Proof.Machine
end

