-- ==== Sys2Proof/Machine/Configure.lean ====
section
/-! DEFINITION. Staged configuration: its registers, the device commit and the partition commit (R13, R216, R225, R259,
R324 to R327). -/
namespace Sys2Proof.Machine

/-! Staged values and values in effect (R12). -/

/-- The bits of a register's ST fields. -/
def stagedBits (d : RegDesc) : Word :=
  d.fields.foldl (init := 0) fun m f => if f.acc == .st then m ||| Word.mask f.hi f.lo else m
/-- The staged value of a register takes effect. -/
def applyReg (r : Blk × Nat) (s : State) : State := rsetEff s r.1 r.2 (rg s r.1 r.2)
/-- The staged fields of a register go back to their values in effect; its other fields stay. -/
def discardReg (r : Blk × Nat) (s : State) : State :=
  match regDesc r.1 r.2 with
  | some d =>
    let m := stagedBits d
    let w := rg s r.1 r.2
    let w' := (w &&& ~~~m) ||| (rgEff s r.1 r.2 &&& m)
    if w' = w then s else rset s r.1 r.2 w'
  | none => s
/-- The device-scope registers with staged fields (R324). -/
def deviceRegs : List (Blk × Nat) :=
  ((List.range 32).flatMap fun p => [(Blk.part p, rPartComp), (Blk.part p, rPartHvcg)]) ++
    ((List.range 8).flatMap fun k =>
      ((List.range 64).map fun r => (Blk.memc k, rMemcRanger r)) ++
        (List.range 32).flatMap fun p => (List.range 32).map fun c => (Blk.memc k, rMemcRegpc p c)) ++
    (List.range 512).map fun k => (Blk.grt (k / 128), rGrtOwnk (k % 128))
/-- The partition-scope registers with staged fields (R324), the refill list of R374 among them. -/
def partRegs (p : Nat) : List (Blk × Nat) :=
  [(Blk.kvp p, rKvpXltroot), (Blk.kvp p, rKvpLentab)] ++
    ((List.range 8).flatMap fun q => [(Blk.kvp p, rKvpPoolcfgq q), (Blk.kvp p, rKvpPoolringq q)]) ++
    ((List.range 4).map fun w => (Blk.fab, rFabAdmitpw p w)) ++
    ((List.range 16).flatMap fun q =>
      [(Blk.part p, rPartQcfgq q), (Blk.part p, rPartQjobq q), (Blk.part p, rPartQcplq q)]) ++
    [(Blk.part p, rPartRefill)]
/-- The registers of a list whose staged value differs from the value in effect. -/
def stagedNew (s : State) (l : List (Blk × Nat)) : List (Blk × Nat) := l.filter fun r => rg s r.1 r.2 != rgEff s r.1 r.2

/-! Registers with staged fields. -/

/-- A write of MEMC_RANGEr. -/
def wrMemcRange (a : Acc) (k r : Nat) (v : Word) (s : State) : State :=
  hostWrite a (.memc k) (rMemcRanger r) dMemcRanger .steward v
    (fun x _ => firstOf [
      (decide ((if k < 4 then 768 else 512) < x.new.field 9 0 + x.new.field 41 32), .outOfRange),
      (x.new.bit 63 && x.new.field 41 32 == 0, .illegalValue),
      (x.new.bit 62 && decide (4 ≤ k), .illegalValue)]) noAct s

/-- A write of MEMC_REGpc. -/
def wrMemcReg (a : Acc) (k p c : Nat) (v : Word) (s : State) : State :=
  hostWrite a (.memc k) (rMemcRegpc p c) dMemcRegpc .steward v
    (fun x _ =>
      let g := x.new.field 8 0
      let l := x.new.field 24 16
      let b := x.new.field 40 32
      firstOf [(decide (248 < g ∨ l = 0 ∨ 320 < l ∨ l < g ∨ b < 16 ∨ 256 < b), .illegalValue)]) noAct s

/-- A write of PART_COMP. -/
def wrPartComp (a : Acc) (p : Nat) (v : Word) (s : State) : State :=
  hostWrite a (.part p) rPartComp dPartComp .steward v noCheck noAct s
/-- A write of PART_HVCG. -/
def wrPartHvcg (a : Acc) (p : Nat) (v : Word) (s : State) : State :=
  hostWrite a (.part p) rPartHvcg dPartHvcg .steward v noCheck noAct s
/-- A write of PART_QCFGq. -/
def wrPartQcfg (a : Acc) (p q : Nat) (v : Word) (s : State) : State :=
  hostWrite a (.part p) (rPartQcfgq q) dPartQcfgq (.ownerVf p) v
    (fun x _ => firstOf [
      (decide (x.new.field 55 52 < 4 ∨ x.new.field 59 56 < 4 ∨ 12 < x.new.field 59 56), .illegalValue)]) noAct s
/-- A write of KVP_POOLCFGq. -/
def wrKvpPoolcfg (a : Acc) (p q : Nat) (v : Word) (s : State) : State :=
  hostWrite a (.kvp p) (rKvpPoolcfgq q) dKvpPoolcfgq (.ownerVf p) v
    (fun x _ => firstOf [
      (decide (x.new.field 52 48 < 8 ∨ 20 < x.new.field 52 48 ∨ 4 < x.new.field 58 56), .illegalValue)]) noAct s

/-! The device commit: what is staged. -/

/-- PART_COMP as staged. -/
def compNew (s : State) (p : Nat) : Word := rg s (.part p) rPartComp
/-- Whether a partition is valid after the commit. -/
def validNew (s : State) (p : Nat) : Bool := (compNew s p).bit 63
/-- Groups as staged. -/
def groupsNew (s : State) (p : Nat) : Word := rg s (.part p) rPartHvcg
/-- The valid partitions after the commit. -/
def newParts (s : State) : List Nat := (List.range 32).filter (validNew s)
/-- The clusters of a partition after the commit. -/
def newClusters (s : State) (p : Nat) : List Nat := (List.range 32).filter fun r => (compNew s p).bit r
/-- Valid range entries of a stack after the commit. -/
def newRanges (s : State) (k : Nat) : List (Nat × Word) :=
  ((List.range 64).map fun r => (r, rg s (.memc k) (rMemcRanger r))).filter fun e => e.2.bit 63
/-- Valid range entries of a stack in effect. -/
def oldRanges (s : State) (k : Nat) : List (Nat × Word) :=
  ((List.range 64).map fun r => (r, rgEff s (.memc k) (rMemcRanger r))).filter fun e => e.2.bit 63
/-- Whether an entry covers a granule. -/
def covers (w : Word) (g : Nat) : Bool := decide (w.field 9 0 ≤ g ∧ g < w.field 9 0 + w.field 41 32)
/-- The granules of an entry. -/
def granules (w : Word) : List Nat := (List.range (w.field 41 32)).map (w.field 9 0 + ·)
/-- The partition of an entry. -/
def entryPart (w : Word) : Nat := w.field 52 48
/-- Whether stack `k` has failed training (R364). -/
def stackFailed (s : State) (k : Nat) : Bool := (rg s .bup rBupMemres).bit k
/-- GRT_OWNk as staged: the partition that owns core `k`; the cores of a failed stack stay unowned (R364). -/
def coreNew (s : State) (k : Nat) : Option Nat :=
  let w := rg s (.grt (k / 128)) (rGrtOwnk (k % 128))
  if w.bit 63 && !stackFailed s (4 + k / 128) then some (w.field 4 0) else none

/-- Keys of last holders: clusters, granules of a stack, grotto cores. -/
def heldCluster (r : Nat) : Nat := r
/-- The key of a granule. -/
def heldGranule (k g : Nat) : Nat := 0x1000 + k * 0x400 + g
/-- The key of a grotto core. -/
def heldCore (k : Nat) : Nat := 0x10000 + k
/-- The last holder of something, `none` where no partition has held it since bring-up (R225). -/
def lastHolder (s : State) (key : Nat) : Option Nat :=
  match SMap.get 32 s.bup.everHeld key with
  | 32 => none
  | p => some p

/-! The checks of R325; each gives the partitions that take part in a failing instance. -/

/-- Clusters or groups staged in two valid partitions. -/
def twiceHeld (s : State) : List Nat :=
  (newParts s).filter fun p => (newParts s).any fun q => p != q &&
    ((compNew s p &&& compNew s q).field 31 0 != 0 || groupsNew s p &&& groupsNew s q != 0)
/-- Bits set in a word. -/
def wordBits (w : Word) : Nat := (List.range 64).countP w.getLsbD
/-- No cluster, or more than eight groups. -/
def badShape (s : State) : List Nat :=
  (newParts s).filter fun p => newClusters s p == [] || decide (8 < wordBits (groupsNew s p))
/-- VF p + 1 not enabled on the port that PORT names. -/
def vfMissing (s : State) : List Nat :=
  (newParts s).filter fun p => decide ((s.portOf ((compNew s p).bit 32)).vfs < p + 1)
/-- Whether a cluster can be given to a partition (R368, R387, R414): not degraded, and LOCKED. -/
def clusterUsable (s : State) (r : Nat) : Bool := clusterClass s r != 0 && !s.bup.clockDead.contains r && (rg s .clk rClkPll).bit (32 + r)
/-- Clusters given that cannot be used, ranges in failed stacks, clusters changed under repair. -/
def unusable (s : State) : List Nat :=
  ((newParts s).filter fun p => (newClusters s p).any fun r => !partHasCluster s p r && !clusterUsable s r) ++
    ((List.range 8).flatMap fun k =>
      if stackFailed s k then (newRanges s k).map fun e => entryPart e.2 else []) ++
    (List.range 32).filter fun p => (rg s (.part p) rPartRepair).bit 0 &&
      (compNew s p).field 31 0 != (rgEff s (.part p) rPartComp).field 31 0
/-- Whether two entries overlap. -/
def entriesOverlap (v w : Word) : Bool :=
  decide (v.field 9 0 < w.field 9 0 + w.field 41 32 ∧ w.field 9 0 < v.field 9 0 + v.field 41 32)
/-- Overlapping entries: the lower partition of each pair. -/
def overlaps (s : State) : List Nat :=
  (List.range 8).flatMap fun k =>
    (newRanges s k).flatMap fun e =>
      ((newRanges s k).filter fun f => e.1 != f.1 && entriesOverlap e.2 f.2).map fun f => min (entryPart e.2) (entryPart f.2)
/-- GUAR of a partition on a channel, staged. -/
def guarNew (s : State) (k p c : Nat) : Nat := rf s (.memc k) (rMemcRegpc p c) 8 0
/-- Channels above 62 GB/s of guarantee (R216). -/
def overGuaranteed (s : State) : List Nat :=
  (List.range 8).flatMap fun k => (List.range 32).flatMap fun c =>
    let ps := (newParts s).filter fun p => guarNew s k p c != 0
    if 248 < ps.foldl (fun m p => m + guarNew s k p c) 0 then ps else []
/-- Grotto cores given to another partition while they run (R259). -/
def busyCores (s : State) : List Nat :=
  (List.range 512).filterMap fun k =>
    match coreNew s k with
    | some p => if lastHolder s (heldCore k) != some p && (s.grotto k).active then some p else none
    | none => none
/-- Whether any queue of a partition is VALID in effect. -/
def anyQueueValid (s : State) (p : Nat) : Bool := (List.range 16).any fun q => queueValid s p q
/-- Whether a valid partition loses a cluster, group, range or grotto core; one that the commit makes invalid loses all
it has, and is checked (the model's choice, log entry 89). -/
def loses (s : State) (p : Nat) : Bool :=
  let kept := if validNew s p then (compNew s p).field 31 0 else 0
  let groups := if validNew s p then groupsNew s p else 0
  (List.range 32).any (fun r => partHasCluster s p r && !kept.testBit r) ||
    (rgEff s (.part p) rPartHvcg &&& ~~~groups) != 0 ||
    (List.range 8).any (fun k => (oldRanges s k).any fun e => entryPart e.2 == p &&
      (granules e.2).any fun g => !(newRanges s k).any fun f => entryPart f.2 == p && covers f.2 g) ||
    (List.range 512).any fun k => partOfGrotto s k == some p && coreNew s k != some p
/-- Partitions that lose something while in use. -/
def losers (s : State) : List Nat :=
  (List.range 32).filter fun p => partValid s p &&
    (!(trvState s p == trvEMPTY || trvState s p == trvFAILED) || anyQueueValid s p) && loses s p
/-- Partitions whose PORT changes while a queue is VALID. -/
def portMovers (s : State) : List Nat :=
  (newParts s).filter fun p => partValid s p && anyQueueValid s p && (compNew s p).bit 32 != partPort s p

/-- The lowest of a list. -/
def lowest : List Nat → Option Nat
  | [] => none
  | p :: r => some (r.foldl min p)

/-- The first failing check of a device commit: its code and FAILPART. -/
def deviceCheck (s : State) : Option (Code × Nat) :=
  [(twiceHeld s, Code.illegalValue), (badShape s, .illegalValue), (vfMissing s, .wrongState), (unusable s, .wrongState),
    (overlaps s, .illegalValue), (overGuaranteed s, .outOfRange), (busyCores s, .wrongState), (losers s, .wrongState),
    (portMovers s, .wrongState)].findSome? fun x => (lowest x.1).map fun p => (x.2, p)

/-! What a device commit does. -/

/-- A cluster handed to a partition other than its last holder: its slices and stores are filled (R225). -/
def handCluster (p r : Nat) (s : State) : State :=
  if lastHolder s (heldCluster r) = some p then s
  else
    let s := { s with bup := { s.bup with
      everHeld := SMap.put (heldCluster r) p s.bup.everHeld, fills := s.bup.fills ++ [.cluster (Fin.ofNat 32 r)] } }
    (List.range 17).foldl (fun s j => rput s (.tile (r * 17 + j)) rTileSlState 0 0 1) s

/-- FINE of the entry in effect that covers a granule. -/
def fineOld (s : State) (k g : Nat) : Option Bool := ((oldRanges s k).find? fun e => covers e.2 g).map fun e => e.2.bit 62

/-- The granules of a new entry that are handed over: to another holder, or with FINE changed (R225). Nobody can see their
old bytes from here on; an access ends the fill of its granule, and FILL_DONE that of the rest. -/
def handRange (k : Nat) (e : Nat × Word) (s : State) : State :=
  let gs := (granules e.2).filter fun g =>
    lastHolder s (heldGranule k g) != some (entryPart e.2) ||
      (match fineOld s k g with | some f => f != e.2.bit 62 | none => false)
  if gs = [] then s
  else
    let s := gs.foldl (fun s g => memFill (.stack k) (stackBase k + g * 0x4000000) 0x4000000 s) s
    { s with bup := { s.bup with
      everHeld := gs.foldl (fun m g => SMap.put (heldGranule k g) (entryPart e.2) m) s.bup.everHeld
      handed := s.bup.handed.filter (fun x => !(x.1 == k && gs.contains x.2)) ++ gs.map fun g => (k, g)
      fills := s.bup.fills ++ [.range (Fin.ofNat 8 k) (Fin.ofNat 64 e.1)] } }

/-- A core handed over: local store filled, counters, flags and LAUNCHES 0, image cleared (R259). -/
def handCore (k : Nat) (s : State) : State :=
  match coreNew s k with
  | none => s
  | some p =>
    if lastHolder s (heldCore k) = some p then s
    else
      let s := { s with bup := { s.bup with everHeld := SMap.put (heldCore k) p s.bup.everHeld } }
      memFill (.ls k) 0 0x10000 (s.setGrotto k { s.grotto k with cnt := [], sat := [], launches := 0, img := none, launchDue := none })

/-- A device commit that passes its checks, at its commit point: every regulator's buckets are full (R212). -/
def deviceApply (s : State) : State :=
  let s := (newParts s).foldl (fun s p => (newClusters s p).foldl (fun s r => handCluster p r s) s) s
  let s := (List.range 8).foldl (fun s k => (newRanges s k).foldl (fun s e => handRange k e s) s) s
  let s := (List.range 512).foldl (fun s k => handCore k s) s
  let s := (List.range 8).foldl (fun s k => s.setStack k { s.stack k with regs := [] }) s
  (stagedNew s deviceRegs).foldl (init := s) fun s r =>
    match r.1 with
    | .grt g => if stackFailed s (4 + g) then s else applyReg r s
    | _ => applyReg r s

/-! The checks of a partition commit (R326). -/

/-- Whether the first and the last byte of a table of less than 64 MiB lie in stack ranges of partition `p`: then all of
it does, for ranges are made of granules of 64 MiB. -/
def tableIn (s : State) (p base size : Nat) : Bool :=
  (inRange s p base).isSome && (inRange s p (base + size - 1)).isSome

/-- The code of a failed address or counter check of the KVP page (R326). -/
def kvpCheck (s : State) (p : Nat) : Option Code :=
  let root := rg s (.kvp p) rKvpXltroot
  let len := rg s (.kvp p) rKvpLentab
  let held (i : Nat) : Bool := partOfGroup s (i / 64) == some p
  firstOf ([(root.bit 63 && (inRange s p (root.field 47 13 * 8192)).isNone, Code.outOfRange),
      (len.bit 0 && !tableIn s p (len.field 47 6 * 64) (64 * (len.field 63 48 + 1)), .outOfRange)] ++
    (List.range 8).flatMap fun q =>
      let c := rg s (.kvp p) (rKvpPoolcfgq q)
      let base := rf s (.kvp p) (rKvpPoolringq q) 47 3 * 8
      [(c.bit 63 && !tableIn s p base (8 * 2 ^ c.field 52 48), Code.outOfRange),
        (c.bit 63 && base % (8 * 2 ^ c.field 52 48) != 0, .illegalValue),
        (c.bit 63 && (!held (c.field 11 0) || !held (c.field 27 16) || c.field 11 0 == c.field 27 16), .illegalValue)])

/-- The code of a failed window check (R326). -/
def admitCheck (s : State) (p : Nat) : Option Code :=
  firstOf ((List.range 4).map fun w =>
    let r := rg s .fab (rFabAdmitpw p w)
    (r.bit 63 && decide (r.field 41 28 < r.field 13 0), Code.illegalValue))

/-- The four counters that a queue configuration names. -/
def queueCounters (c : Word) : List Nat := [c.field 47 36, c.field 35 24, c.field 23 12, c.field 11 0]

/-- The checks of queue `q` (R326), for a queue VALID after the commit. -/
def queueCheck (s : State) (p q : Nat) : Option Code :=
  let c := rg s (.part p) (rPartQcfgq q)
  let e := queueCfg s p q
  let job := rf s (.part p) (rPartQjobq q) 47 6 * 64
  let cpl := rf s (.part p) (rPartQcplq q) 45 5 * 32
  let cs := queueCounters c
  let h := (s.part p).hqOf q
  let changed := (c ^^^ e) &&& stagedBits dPartQcfgq != 0 ||
    rg s (.part p) (rPartQjobq q) != rgEff s (.part p) (rPartQjobq q) ||
    rg s (.part p) (rPartQcplq q) != rgEff s (.part p) (rPartQcplq q)
  if !c.bit 63 then none
  else
    firstOf [(cs.eraseDups.length != 4, .illegalValue),
      (cs.any fun i => partOfGroup s (i / 64) != some p, .illegalValue),
      (job % (64 * 2 ^ c.field 59 56) != 0 || cpl % (32 * 2 ^ c.field 55 52) != 0, .illegalValue),
      (!tableIn s p job (64 * 2 ^ c.field 59 56), .outOfRange),
      (decide (2 ^ 46 < cpl + 32 * 2 ^ c.field 55 52), .outOfRange),
      (e.bit 63 && changed && (h.jobs != [] || h.waiting != []), .wrongState)]

/-- The first failing check of a partition commit. -/
def partCheck (s : State) (p : Nat) : Option Code :=
  match kvpCheck s p with
  | some c => some c
  | none =>
    match admitCheck s p with
    | some c => some c
    | none => (List.range 16).findSome? (queueCheck s p)

/-! Commits, one at a time (R327). -/

/-- The number of a running commit: of the device through a port, or of partition `p`. -/
def commitKey (port : Bool) : Nat := if port then 1 else 0
/-- The number of a partition's commit. -/
def commitKeyOf (p : Nat) : Nat := 2 + p
/-- The register that shows a commit. -/
def commitReg (key : Nat) : Blk × Nat :=
  if key < 2 then (.hif (key == 1), rHifPcommit) else (.part (key - 2), rPartCommit)
/-- STAT and CODE of a commit. -/
def showCommit (key : Nat) (code : Code) (s : State) : State :=
  let r := commitReg key
  rput (rput s r.1 r.2 57 56 (if code = 0 then 1 else 2)) r.1 r.2 15 0 code.toNat

/-- The first device commit that is applied ends bring-up step 12 (R354, R370). -/
def endStep12 (s : State) : State :=
  if rf s .bup rBupState 47 44 = 11 then raisePF0 8 (rset s .bup rBupState (BitVec.ofNat 64 (12 * 2 ^ 44 + 2 * 2 ^ 42))) else s

/-- The commit point of a device commit: checked, and applied whole or not at all (R325). -/
def runDevice (key : Nat) (s : State) : State :=
  match deviceCheck s with
  | some (c, p) => showCommit key c (rput s (commitReg key).1 rHifPcommit 52 48 p)
  | none => endStep12 (showCommit key 0 (deviceApply (rput s (commitReg key).1 rHifPcommit 52 48 0)))

/-- The commit point of a partition commit (R326). -/
def runPart (p : Nat) (s : State) : State :=
  match partCheck s p with
  | some c => showCommit (commitKeyOf p) c s
  | none => showCommit (commitKeyOf p) 0 ((stagedNew s (partRegs p)).foldl (fun s r => applyReg r s) s)

/-- The commit point of a commit. -/
def runCommit (key : Nat) (s : State) : State := if key < 2 then runDevice key s else runPart (key - 2) s

/-- A commit becomes the last of those waiting at the saddle; where none runs, it runs (R327). -/
def startCommit (key : Nat) (s : State) : State :=
  let r := commitReg key
  let alone := s.bup.commitBusy == []
  let s := rput { s with bup := { s.bup with commitBusy := s.bup.commitBusy ++ [key] } } r.1 r.2 61 61 1
  if alone then runCommit key s else s

/-- The running commit completes, and the next one runs. -/
def endCommit (s : State) : State :=
  match s.bup.commitBusy with
  | [] => s
  | key :: rest =>
    let r := commitReg key
    let s := rput { s with bup := { s.bup with commitBusy := rest } } r.1 r.2 61 61 0
    match rest with
    | [] => s
    | next :: _ => runCommit next s

/-- A write of HIF_PCOMMIT (R324, R354). -/
def wrHifPcommit (a : Acc) (v : Word) (s : State) : State :=
  hostWrite a (.hif a.port) rHifPcommit dHifPcommit .steward v
    (fun x s => firstOf [(x.v.bit 63 && x.v.bit 62, .illegalValue),
      (x.old.bit 61 || (x.v.bit 63 && !bupPast s 11), .wrongState)])
    (fun x s =>
      if x.v.bit 63 then startCommit (commitKey a.port) s
      else if x.v.bit 62 then (stagedNew s deviceRegs).foldl (fun s r => discardReg r s) s
      else s) s

/-- DEVICE_COMMIT (R325). -/
def execDeviceCommit (a : Acc) (v : Word) (s : State) : Host.Outcome State Fault Refusal :=
  .next (wrHifPcommit a (v ||| BitVec.ofNat 64 (2 ^ 63)) s)
/-- DISCARD in HIF_PCOMMIT (R327). -/
def execPcommitDiscard (a : Acc) (v : Word) (s : State) : Host.Outcome State Fault Refusal :=
  .next (wrHifPcommit a (v ||| BitVec.ofNat 64 (2 ^ 62)) s)
/-- DEVICE_COMMIT_DONE (R325, R327). -/
def execDeviceCommitDone (s : State) : Host.Outcome State Fault Refusal :=
  match s.bup.commitBusy with
  | key :: _ => if key < 2 then .next (endCommit s) else .next s
  | [] => .next s

/-- A write of PART_COMMIT. -/
def wrPartCommit (a : Acc) (p : Nat) (v : Word) (s : State) : State :=
  hostWrite a (.part p) rPartCommit dPartCommit (.ownerVf p) v
    (fun x s => firstOf [(x.v.bit 63 && x.v.bit 62, .illegalValue),
      (x.old.bit 61 || ((x.v.bit 63 || x.v.bit 62) && !partValid s p), .wrongState)])
    (fun x s =>
      if x.v.bit 63 then startCommit (commitKeyOf p) s
      else if x.v.bit 62 then (stagedNew s (partRegs p)).foldl (fun s r => discardReg r s) s
      else s) s

/-- PART_COMMIT (R324, R326). -/
def execPartCommit (a : Acc) (p : Fin 32) (v : Word) (s : State) : Host.Outcome State Fault Refusal :=
  .next (wrPartCommit a p (v ||| BitVec.ofNat 64 (2 ^ 63)) s)
/-- DISCARD in PART_COMMIT (R327). -/
def execPartDiscard (a : Acc) (p : Fin 32) (v : Word) (s : State) : Host.Outcome State Fault Refusal :=
  .next (wrPartCommit a p (v ||| BitVec.ofNat 64 (2 ^ 62)) s)
/-- PART_COMMIT_DONE (R326, R327). -/
def execPartCommitDone (p : Fin 32) (s : State) : Host.Outcome State Fault Refusal :=
  match s.bup.commitBusy with
  | key :: _ => if key = commitKeyOf p then .next (endCommit s) else .next s
  | [] => .next s

end Sys2Proof.Machine
end

