-- ==== Sys2Proof/Machine/DeviceTime.lean ====
section
/-! DEFINITION. Device time: roles, discipline, steps, holdover, pulses, and the registers of the TIME block (R304 to
R310). -/
namespace Sys2Proof.Machine

/-- ROLE. -/
def timeRole (s : State) : Nat := rf s .time rTimeCtrl 1 0
/-- SRC. -/
def timeSrc (s : State) : Nat := rf s .time rTimeCtrl 3 2
/-- NOSTEP. -/
def noStep (s : State) : Bool := (rg s .time rTimeCtrl).bit 8
/-- STATE of TIME_STAT. -/
def timeState (s : State) : Nat := rf s .time rTimeStat 2 0
/-- The state with STATE set. -/
def setTimeState (st : Nat) (s : State) : State := rput s .time rTimeStat 2 0 st
/-- STATE ACQUIRING. -/
def timeACQUIRING : Nat := 1
/-- STATE LOCKED. -/
def timeLOCKED : Nat := 2
/-- STATE HOLDOVER. -/
def timeHOLDOVER : Nat := 3
/-- The uplink in use (R308). -/
def activeUplink (s : State) : Nat :=
  if s.time.onUplink2 then rf s .time rTimeCtrl 21 16 else rf s .time rTimeCtrl 14 9

/-- A `w`-bit two's complement field; a value outside its range is not stated (log entry 2). -/
def fitSigned (w : Nat) (x : Int) (s : State) : Nat × State :=
  if -(2 ^ (w - 1) : Nat) ≤ x ∧ x < (2 ^ (w - 1) : Nat) then (unsignedOf w x, s)
  else
    let (k, s) := s.draw
    (k % 2 ^ w, s)

/-- Device time moved by `d` units of 2^-4 ns, with the instants of the reference that it counts from. -/
def shiftTime (d : Int) (s : State) : State :=
  let f (t : Nat) : Nat := (((t : Int) + 12288 * d) % ((196608 * 2 ^ 64 : Nat) : Int)).toNat
  { s with time := { s.time with t := f s.time.t, refFrom := f s.time.refFrom, lastPps := s.time.lastPps.map f } }

/-- Time is stepped by an offset above 1 µs (R306). -/
def stepTime (d : Int) (s : State) : State := raiseDevice (logEvent srcTime .timeStepped 0 (shiftTime d s))

/-- Slewing toward zero offset: device time runs at RATE from now on, toward the reference, by an amount that the spec bounds
by 200 ppm and otherwise leaves open (R306, log entry 2). -/
def slewTime (d : Int) (s : State) : State :=
  let (k, s) := s.draw
  let a : Int := (k % 20001 : Nat)
  rput s .time rTimeStat 31 16 (unsignedOf 16 (if d < 0 then -a else if d = 0 then 0 else a))

/-- One measurement of the offset `d` (reference less own time, in 2^-4 ns); `lim` is the limit of R307. -/
def discipline (d : Int) (lim : Nat) (s : State) : State :=
  if resetting s .device then s
  else
    let (o, s) := fitSigned 32 (-d) s
    let s := rput s .time rTimeStat 63 32 o
    let good := if d.natAbs ≤ lim then s.time.good + 1 else 0
    let s := setTimeState (if 16 ≤ good then timeLOCKED else timeACQUIRING) { s with time := { s.time with good := good } }
    if 16000 < d.natAbs ∧ noStep s = false then stepTime d s else slewTime d s

/-- The offset that an answered echo gives a member: peer time less own time (R293). -/
def memberEcho (l : Nat) (e : EchoData) (t : EchoTimes) (s : State) : State :=
  if timeRole s = 2 ∧ activeUplink s = l then
    let s := rput s .time rTimeStat 15 12 (min 15 (e.peerHops + 1))
    let s := if e.e0 = rg s .time rTimeE0 then s else { s with time := { s.time with newE0 := some e.e0 } }
    let (d, s) := roundFree (echoOffset2 (ownTime s) t) 2 s
    discipline d 16 s
  else s

/-- ECHO (R293, R294, R305): a link asks, and the answer gives its figures, and for a member on its uplink the discipline of
time; while the link trains the echo is one of the sixteen of step 4. -/
def execEcho (l : Fin 48) (e : EchoData) (s : State) : Host.Outcome State Fault Refusal :=
  let k := s.link l
  if !linkIsUp s l && linkState s l != linkMEASURE then .next s
  else
    let s := s.send (.echoRequest l)
    match e.times with
    | none => .next (s.setLink l { k with missed := k.missed + 1, peerLocked := e.peerLocked })
    | some t =>
      let s := s.setLink l { k with peerLocked := e.peerLocked }
      if linkIsUp s l then .next (memberEcho l e t (noteDrift l (measureEcho l t s))) else .next (trainingEcho l s t)

/-- HOLDOVER is entered (R308). -/
def enterHoldover (s : State) : State :=
  if timeState s = timeHOLDOVER then s
  else
    let s := setTimeState timeHOLDOVER { s with time := { s.time with good := 0 } }
    raiseDevice (logEvent srcTime .timeHoldover 0 s)

/-- Whether the reference is lost (R308): three echoes of the uplink missed; PTM or PPS_IN missing for 3 s. -/
def referenceLost (s : State) : Bool :=
  match timeRole s with
  | 1 =>
    if timeSrc s = 0 then decide (3000 ≤ s.time.missedRef)
    else
      match s.time.lastPps with
      | some t => decide (t + 3000000000 * 196608 ≤ s.time.t)
      | none => decide (s.time.refFrom + 3000000000 * 196608 ≤ s.time.t)
  | 2 => !linkIsUp s (activeUplink s) || decide (3 ≤ (s.link (activeUplink s)).missed)
  | _ => false

/-- TIME_HOLDOVER (R308). -/
def execTimeHoldover (s : State) : Host.Outcome State Fault Refusal :=
  if !referenceLost s then .next s
  else
    let u2 := rf s .time rTimeCtrl 21 16
    if timeRole s = 2 ∧ !s.time.onUplink2 ∧ (rg s .time rTimeCtrl).bit 15 ∧ linkIsUp s u2 ∧ (s.link u2).peerLocked then
      .next (setTimeState timeACQUIRING { s with time := { s.time with onUplink2 := true, good := 0 } })
    else .next (enterHoldover s)

/-- A root's measurement against its source. -/
def rootMeasure (d : Int) (s : State) : State := discipline d 160 (rput s .time rTimeStat 15 12 0)

/-- PTM_REQUEST (R305): a request on the steward port; a root with SRC PTM targets the master time plus TIME_PTMOFS. -/
def execPtmRequest (master : Option PtmReply) (s : State) : Host.Outcome State Fault Refusal :=
  if timeRole s ≠ 1 ∨ timeSrc s ≠ 0 then .next s
  else
    let s := s.send (.ptm (stewardPort s))
    match master, portUp s (stewardPort s) with
    | some r, true =>
      let target := r.master + 16 * (rg s .time rTimePtmofs).toInt
      .next (rootMeasure (target - ownTime s) { s with time := { s.time with missedRef := 0 } })
    | _, _ => .next { s with time := { s.time with missedRef := s.time.missedRef + 1 } }

/-- Device time less the nearest whole second, in 2^-4 ns. -/
def pastSecond (s : State) : Int :=
  let r := ownTime s % 16000000000
  if r < 8000000000 then r else r - 16000000000

/-- PPS_IN_EDGE (R305, R310): the time is latched with a resolution of 62.5 ps; a root with SRC PPS_IN takes the
second that TIME_SET has supplied, or aligns to the edge. -/
def execPpsInEdge (s : State) : Host.Outcome State Fault Refusal :=
  let s := rset s .time rTimePpsin (BitVec.ofNat 64 s.nowNs)
  let s := rset s .time rTimePpsinfrac (BitVec.ofNat 64 (2 ^ 16 + s.nowFrac / 4096 * 4096))
  if timeRole s ≠ 1 ∨ timeSrc s ≠ 1 then .next s
  else
    match s.time.pendingSet with
    | some ns =>
      .next { s with time := { s.time with t := ns.toNat * 196608, pendingSet := none, lastPps := some (ns.toNat * 196608) } }
    | none =>
      let s := rootMeasure (-(pastSecond s)) s
      .next { s with time := { s.time with lastPps := some s.time.t } }

/-- The first cycle on which device time has reached `t`. -/
def cycleOfTime (s : State) (t : Nat) : Nat :=
  s.cyc + ((t - s.time.t) * clockDen s - s.time.rem + clockNum s - 1) / clockNum s
/-- OFS of TIME_PPSCTRL. -/
def ppsOfs (s : State) : Int := signedOf 32 (rf s .time rTimePpsctrl 63 32)
/-- The last instant at which device time passed a whole second plus OFS, in ns. -/
def lastPulse (s : State) : Int := ((s.nowNs : Int) - ppsOfs s) / 1000000000 * 1000000000 + ppsOfs s

/-- PPS_OUT_EDGE (R310): the pulse rises at each whole second plus OFS and falls WIDTH ms later. -/
def execPpsOutEdge (s : State) : Host.Outcome State Fault Refusal :=
  if !(rg s .time rTimePpsctrl).bit 0 then .next { s with therm := { s.therm with ppsOut := false } }
  else
    let at_ : Int := if s.therm.ppsOut then lastPulse s + 1000000 * (rf s .time rTimePpsctrl 11 2 : Nat)
      else lastPulse s + 1000000000
    let s := s.upTo (cycleOfTime s (at_.toNat * 196608))
    .next { s with therm := { s.therm with ppsOut := !s.therm.ppsOut } }

/-! Registers. -/

/-- A write of TIME_CTRL (R305). -/
def wrTimeCtrl (a : Acc) (v : Word) (s : State) : State :=
  hostWrite a .time rTimeCtrl dTimeCtrl .steward v
    (fun x _ => firstOf [(x.new.field 1 0 == 3 || decide (2 ≤ x.new.field 3 2), .illegalValue),
      (decide (47 < x.new.field 14 9 ∨ 47 < x.new.field 21 16), .outOfRange)])
    (fun x s =>
      if x.new.field 3 0 = x.old.field 3 0 ∧ x.new.field 21 9 = x.old.field 21 9 then s
      else
        let s := { s with time := { s.time with
          good := 0, missedRef := 0, onUplink2 := false, pendingSet := none, lastPps := none, refFrom := s.time.t } }
        let s := if x.new.field 1 0 = 1 then rput s .time rTimeStat 15 12 0 else s
        let s := if x.new.field 1 0 = 0 then rput s .time rTimeStat 31 16 0 else s
        setTimeState (if x.new.field 1 0 = 0 then 0 else timeACQUIRING) s) s

/-- A write of TIME_PTMOFS. -/
def wrTimePtmofs (a : Acc) (v : Word) (s : State) : State :=
  hostWrite a .time rTimePtmofs dTimePtmofs .steward v noCheck noAct s

/-- A write of TIME_SET (R305). -/
def wrTimeSet (a : Acc) (v : Word) (s : State) : State :=
  hostWrite a .time rTimeSet dTimeSet .steward v
    (fun x s =>
      let root := timeRole s == 1 && timeSrc s == 1
      firstOf [(root && x.v.toNat % 1000000000 != 0, .illegalValue),
        ((timeRole s != 0 && !root) || noStep s, .wrongState)])
    (fun x s =>
      if timeRole s = 0 then { s with time := { s.time with t := x.v.toNat * 196608 } }
      else { s with time := { s.time with pendingSet := some x.v } }) s

/-- TIME_SET (R305). -/
def execTimeSet (a : Acc) (v : Word) (s : State) : Host.Outcome State Fault Refusal := .next (wrTimeSet a v s)

/-- A write of TIME_E0 (R309); the next mark counts from the new origin. -/
def wrTimeE0 (a : Acc) (v : Word) (s : State) : State :=
  hostWrite a .time rTimeE0 dTimeE0 .steward v
    (fun _ s => firstOf [(timeRole s != 1 || anyRunning s, .wrongState)])
    (fun x s => { s with time := { s.time with newE0 := some x.new } }) s

/-- TIME_E0 (R309). -/
def execTimeE0 (a : Acc) (v : Word) (s : State) : Host.Outcome State Fault Refusal := .next (wrTimeE0 a v s)

/-- A write of TIME_PPSCTRL. -/
def wrTimePpsctrl (a : Acc) (v : Word) (s : State) : State :=
  hostWrite a .time rTimePpsctrl dTimePpsctrl .steward v
    (fun x _ =>
      let ofs := signedOf 32 (x.new.field 63 32)
      firstOf [(decide (x.new.field 11 2 = 0 ∨ 999 < x.new.field 11 2), .illegalValue),
        (decide (ofs < -500000000 ∨ 499999999 < ofs), .illegalValue)]) noAct s

/-- A write of TIME_PPSINFRAC. -/
def wrTimePpsinfrac (a : Acc) (v : Word) (s : State) : State :=
  hostWrite a .time rTimePpsinfrac dTimePpsinfrac .steward v noCheck noAct s

/-- TIME_NOW_READ (R304): the nanoseconds, and the fraction of the same instant latched. -/
def execTimeNowRead (port : Bool) (s : State) : Host.Outcome State Fault Refusal :=
  let s := rset s .time rTimeNowfrac (BitVec.ofNat 64 s.nowFrac)
  .next (s.send (.regReply port (BitVec.ofNat 64 s.nowNs)))

end Sys2Proof.Machine
end

