-- ==== Sys2Proof/Machine/Glow.lean ====
section
/-! DEFINITION. The glow log: taking entries, draining them, its registers (R394 to R400). -/
namespace Sys2Proof.Machine

/-- The undrained count (R397). -/
def undrained (s : State) : Nat :=
  (rf s .ras rLogWrseq 31 0 + 2 ^ 32 - rf s .ras rLogRdseq 31 0) % 2 ^ 32
/-- RDSEQ moved on by `n`. -/
def advanceRd (n : Nat) (s : State) : State :=
  rput s .ras rLogRdseq 31 0 ((rf s .ras rLogRdseq 31 0 + n) % 2 ^ 32)
/-- Whether the log is in DMA mode. -/
def logDma (s : State) : Bool := (rg s .ras rLogDma).bit 63

/-- A glow-log entry (Tables FLT-2 and FLT-3): the epoch is that of its taking. -/
def entryBytes (s : State) (seq : Nat) (e : GlowEntry) : List Byte :=
  bytesOf 8 s.nowNs ++ bytesOf 4 seq ++ bytesOf 2 e.source ++ bytesOf 2 e.code.toNat ++ bytesOf 8 e.data ++
    bytesOf 8 (epochNum s)

/-- The entry of a slot as a read finds it: with an uncorrectable word, SOURCE 0xFFFF and nothing else certain (R395). -/
def slotBytes (s : State) (i : Nat) : List Byte :=
  if s.flt.contains (.logSlot i) then
    bytesOf 12 (Config.logDamage (2 * s.free)) ++ bytesOf 2 0xFFFF ++ bytesOf 18 (Config.logDamage (2 * s.free + 1))
  else SMap.get (List.replicate 32 0) s.glow.slots i

/-- The pending entry that is taken next: the first source after the last one taken, wrapping (R396). -/
def nextEntry (s : State) : Option (Nat × GlowEntry) :=
  match s.glow.pend.find? fun e => decide (s.glow.lastSource < e.1) with
  | some e => some e
  | none => s.glow.pend.head?

/-- The oldest undrained entries go to the host ring in DMA mode while the steward's link is up (R399). -/
def drainDma : Nat → State → State
  | 0, s => s
  | n + 1, s =>
    if logDma s && portUp s (stewardPort s) && undrained s != 0 then
      let seq := rf s .ras rLogRdseq 31 0
      let w := rg s .ras rLogDma
      let a := w.field 45 12 * 4096 + 32 * (seq % 2 ^ w.field 52 48)
      let s := postHost (stewardPort s) a (slotBytes s (seq % 2048)) s
      drainDma n { advanceRd 1 s with glow := { s.glow with vecOwed := true, lostLogged := false } }
    else s

/-- FCLK cycles of 100 µs at 1.5 GHz. -/
def cyc100us : Nat := 150000

/-- The vector of DMA mode, at most once per 100 µs (R400). -/
def dmaVector (s : State) : State :=
  let free := match s.glow.lastVec with | some c => decide (c + cyc100us ≤ s.cyc) | none => true
  if s.glow.vecOwed && free then raisePF0 5 { s with glow := { s.glow with vecOwed := false, lastVec := some s.cyc } } else s

/-- One entry is taken: stamped, stored, and an overflow counted (R396, R397); in register mode the vector is raised as
the count rises to THRESH. -/
def takeEntry (k : Nat) (e : GlowEntry) (s : State) : State :=
  let seq := rf s .ras rLogWrseq 31 0
  let full := undrained s == 2048
  let g := { s.glow with slots := SMap.put (seq % 2048) (entryBytes s seq e) s.glow.slots
                         pend := SMap.drop k s.glow.pend, lastSource := k }
  let s := rput { s with glow := g, flt := s.flt.filter (· != .logSlot (seq % 2048)) } .ras rLogWrseq 31 0 ((seq + 1) % 2 ^ 32)
  let s := if full then rsat (advanceRd 1 s) .ras rLogCount 31 0 1 else s
  if !logDma s && !full && undrained s == rf s .ras rLogCtrl 43 32 then raisePF0 5 s else s

/-- What one GCLK cycle of the log does. -/
def logCycle (s : State) : State :=
  let s := match nextEntry s with
    | some (k, e) => takeEntry k e s
    | none =>
      match s.glow.vecOwed, s.glow.lastVec with
      | true, some c => s.upTo (c + cyc100us)
      | _, _ => s
  dmaVector (drainDma 2048 s)

/-- LOG_TAKE (R396). -/
def execLogTake (s : State) : Host.Outcome State Fault Refusal := .next (logCycle s)

/-- The entries pending now are taken, as they are between two events of one source that lie more than 120 µs apart. -/
def settleLog (s : State) : State := repeatUnits logCycle s.glow.pend.length s

/-- A write of LOG_RDSEQ (R397 to R399). -/
def wrLogRdseq (a : Acc) (v : Word) (s : State) : State :=
  hostWrite a .ras rLogRdseq dLogRdseq .steward v
    (fun x s => firstOf [(logDma s, .wrongState),
      (decide (undrained s < (x.new.field 31 0 + 2 ^ 32 - x.old.field 31 0) % 2 ^ 32), .outOfRange)])
    (fun _ s => { s with glow := { s.glow with lostLogged := false } }) s

/-- RDSEQ_WRITE (R398). -/
def execRdseqWrite (a : Acc) (v : Word) (s : State) : Host.Outcome State Fault Refusal := .next (wrLogRdseq a v s)

/-- A write of LOG_CTRL. -/
def wrLogCtrl (a : Acc) (v : Word) (s : State) : State :=
  hostWrite a .ras rLogCtrl dLogCtrl .steward v
    (fun x _ => firstOf [(decide (x.new.field 43 32 = 0 ∨ 2048 < x.new.field 43 32), .illegalValue)])
    (fun x s => if x.v.bit 63 then rset s .ras rLogCount 0 else s) s

/-- LOG_CLR (R396). -/
def execLogClr (a : Acc) (v : Word) (s : State) : Host.Outcome State Fault Refusal :=
  .next (wrLogCtrl a (v ||| BitVec.ofNat 64 (2 ^ 63)) s)

/-- A write of LOG_DMA (R399). -/
def wrLogDma (a : Acc) (v : Word) (s : State) : State :=
  hostWrite a .ras rLogDma dLogDma .steward v
    (fun x _ =>
      let n := x.new.field 52 48
      firstOf [(x.new.field 45 12 * 4096 % (32 * 2 ^ n) != 0 && decide (6 ≤ n ∧ n ≤ 16), .illegalValue),
        (decide (n < 6 ∨ 16 < n), .illegalValue),
        (x.old.bit 63 && x.new.field 52 12 != x.old.field 52 12, .wrongState)]) noAct s

/-- A write of RAS_ERRCODE. -/
def wrRasErrcode (a : Acc) (v : Word) (s : State) : State :=
  hostWrite a .ras rRasErrcode dRasErrcode .steward v noCheck (clearErr .ras rRasErrcode) s

end Sys2Proof.Machine
end

