-- ==== Sys2Proof/Machine/Firmware.lean ====
section
/-! DEFINITION. Saddle images: verification, live handover, the version floor, the saddle controller's watchdog
(R388 to R390, R431 to R437). -/
namespace Sys2Proof.Machine

/-! Fuses as they stand. -/

/-- MINSVN. -/
def minSvn (s : State) : Nat := max Config.minSvn s.sec.minSvnBurnt
/-- KEYREV. -/
def keyRev (s : State) : BitVec 4 := Config.keyRev ||| s.sec.keyRevBurnt
/-- Whether a key slot is revoked. -/
def slotRevoked (s : State) (k : Nat) : Bool := (keyRev s).getLsbD k
/-- Whether a key slot holds a key and is not revoked. -/
def slotUsable (s : State) (k : Nat) : Bool := decide (k < 4) && !slotRevoked s k && Config.keyHash k != 0

/-! Verification. -/

/-- The first byte of a half of image RAM (R432). -/
def halfBase (half : Bool) : Nat := if half then 0x400000 else 0

/-- The header's own check (R431, step 1). -/
def headerOk (m : Mem) (a : Nat) : Bool :=
  let size := m.readNat (a + 0x00C) 4
  let entryOk (e : Nat) : Bool := e % 4 == 0 && decide (e + 96 < size)
  m.readNat a 4 == 0x464C4453 && m.readNat (a + 4) 2 == 1 &&
    (size % 16 == 0 && decide (0x200 ≤ size) && decide (size ≤ 0x400000)) &&
    entryOk (m.readNat (a + 0x010) 4) && entryOk (m.readNat (a + 0x014) 4)

/-- The image in a half, by what its header says and the digest of its bytes. -/
def imageIn (m : Mem) (half : Bool) : Firmware :=
  let a := halfBase half
  ⟨Config.sha384 (m.readBytes a (m.readNat (a + 0x00C) 4)), (m.read (a + 6)).toNat, m.readNat (a + 8) 4, half⟩

/-- The checks of R431 on the image in a half: the REASON of the first that fails. -/
def fwCheck (s : State) (half : Bool) : Option Nat :=
  let m := s.bup.imageRam
  let a := halfBase half
  let size := m.readNat (a + 0x00C) 4
  let slot := (m.read (a + 6)).toNat
  let key := m.readBytes (a + 0x020) 96
  if !headerOk m a then some 1
  else if !slotUsable s slot then some 2
  else if Config.sha384 key != Config.keyHash slot then some 3
  else if m.readNat (a + 8) 4 < minSvn s then some 4
  else if !Config.ecdsaVerify key (m.readBytes a (size - 96)) (m.readBytes (a + size - 96) 96) then some 5
  else none

/-! SEC_FWSTAT. -/

/-- HOSTATE idle. -/
def hoIDLE : Nat := 0
/-- HOSTATE loading. -/
def hoLOADING : Nat := 1
/-- HOSTATE awaiting quiescence. -/
def hoAWAIT : Nat := 3
/-- HOSTATE probation. -/
def hoPROBATION : Nat := 4
/-- HOSTATE done. -/
def hoDONE : Nat := 5
/-- HOSTATE failed. -/
def hoFAILED : Nat := 6
/-- HOSTATE. -/
def hostate (s : State) : Nat := rf s .sec rSecFwstat 2 0
/-- HOSTATE set. -/
def setHostate (n : Nat) (s : State) : State := rput s .sec rSecFwstat 2 0 n
/-- CODE and REASON of the last check or handover. -/
def setFwCode (c : Code) (reason : Nat) (s : State) : State :=
  rput (rput s .sec rSecFwstat 63 48 c.toNat) .sec rSecFwstat 47 44 reason

/-- The image that runs from now on: its SVN, slot, half and digest are shown (R432, R435). -/
def nowRunning (f : Firmware) (s : State) : State :=
  let s := rput (rput (rput s .sec rSecFwstat 39 32 f.svn) .sec rSecFwstat 11 10 f.slot) .sec rSecFwstat 9 9
    (if f.half then 1 else 0)
  let s := (List.range 6).foldl
    (fun s i => rset s .sec (rSecFwdigesti i) (BitVec.ofNat 64 (f.digest.toNat >>> (64 * i)))) s
  { s with sec := { s.sec with running := some f } }

/-- RAS_SCSTAT STATE: 0 RUN, 1 RESTARTING, 2 HALTED. -/
def scState (s : State) : Nat := rf s .ras rRasScstat 1 0
/-- The half that does not run. -/
def spareHalf (s : State) : Bool :=
  match s.sec.running with
  | some f => !f.half
  | none => true

/-! Live handover. -/

/-- A handover fails (R433, R434). -/
def failHandover (c : Code) (reason : Nat) (s : State) : State :=
  setHostate hoFAILED (setFwCode c reason { s with sec := { s.sec with waiting := none } })

/-- A write of SEC_HOADDR. -/
def wrSecHoaddr (a : Acc) (v : Word) (s : State) : State :=
  hostWrite a .sec rSecHoaddr dSecHoaddr .steward v noCheck noAct s

/-- A write of SEC_HOCTRL: GO and ABORT (R433). -/
def wrSecHoctrl (a : Acc) (v : Word) (s : State) : State :=
  hostWrite a .sec rSecHoctrl dSecHoctrl .steward v
    (fun x s =>
      let n := x.new.field 22 0
      let h := hostate s
      firstOf [(x.v.bit 63 && decide (n < 0x200 ∨ 0x400000 < n), .outOfRange),
        (x.v.bit 62 && h == hoPROBATION, .wrongState),
        (x.v.bit 63 && (!(h == hoIDLE || h == hoDONE || h == hoFAILED) || scState s == 1), .wrongState)])
    (fun x s =>
      let s := if x.v.bit 63 then setHostate hoLOADING s else s
      if x.v.bit 62 && decide (1 ≤ hostate s ∧ hostate s ≤ 3) then
        setHostate hoIDLE { s with sec := { s.sec with waiting := none } }
      else s) s

/-- HANDOVER_GO (R433, R436). -/
def execHandoverGo (a : Acc) (v : Word) (s : State) : Host.Outcome State Fault Refusal :=
  .next (wrSecHoctrl a (v ||| BitVec.ofNat 64 (2 ^ 63)) s)

/-- HANDOVER_ABORT (R433). -/
def execHandoverAbort (a : Acc) (v : Word) (s : State) : Host.Outcome State Fault Refusal :=
  .next (wrSecHoctrl a (v ||| BitVec.ofNat 64 (2 ^ 62)) s)

/-- HANDOVER_LOADED (R431, R433, R436): the image is read from the steward port and checked. -/
def execHandoverLoaded (s : State) : Host.Outcome State Fault Refusal :=
  if hostate s ≠ hoLOADING then .next s
  else
    let port := stewardPort s
    if portUp s port = false then .next (failHandover .fwRejected 6 s)
    else
      let half := spareHalf s
      let bs := (s.hostMem port).readBytes (rf s .sec rSecHoaddr 45 12 * 4096) (rf s .sec rSecHoctrl 22 0)
      let s := { s with bup := { s.bup with imageRam := s.bup.imageRam.writeBytes (halfBase half) bs } }
      match fwCheck s half with
      | some r => .next (raisePF0 6 (logEvent srcSec .fwRejected 0 (failHandover .fwRejected r s)))
      | none =>
        let f := imageIn s.bup.imageRam half
        let s := setFwCode .ok 0 s
        if scState s = 2 then
          let s := rput (nowRunning f s) .ras rRasScstat 1 0 0
          .next (setHostate hoDONE { s with sec := { s.sec with scStopped := none, beatAt := s.cyc } })
        else
          .next (setHostate hoAWAIT { s with sec := { s.sec with waiting := some f, verifiedAt := s.cyc } })

/-- Whether nothing that a quiescent point excludes is in progress (R434). -/
def quiescent (s : State) : Bool := s.bup.commitBusy.isEmpty && rf s .bup rBupState 43 42 != 1

/-- FCLK cycles of one second at 1.5 GHz. -/
def cycPerS : Nat := 1500000000

/-- QUIESCENT_POINT (R435): the controller jumps to the new image, and probation begins. -/
def execQuiescentPoint (s : State) : Host.Outcome State Fault Refusal :=
  match hostate s == hoAWAIT, s.sec.waiting, s.sec.running with
  | true, some f, some old =>
    if quiescent s && scState s == 0 && decide (s.cyc ≤ s.sec.verifiedAt + cycPerS) then
      let s := nowRunning f s
      .next (setHostate hoPROBATION { s with sec := { s.sec with kept := some old, waiting := none, beatsLeft := 100 } })
    else .next s
  | _, _, _ => .next s

/-- QUIESCENCE_TIMEOUT (R434). -/
def execQuiescenceTimeout (s : State) : Host.Outcome State Fault Refusal :=
  if hostate s = hoAWAIT then .next (failHandover .wrongState 0 (s.upTo (s.sec.verifiedAt + cycPerS))) else .next s

/-- PROBATION_END (R435). -/
def execProbationEnd (s : State) : Host.Outcome State Fault Refusal :=
  if hostate s = hoPROBATION ∧ s.sec.beatsLeft = 0 then
    let s := setHostate hoDONE { s with sec := { s.sec with kept := none } }
    .next (raisePF0 6 (logEvent srcSec .fwHandover 0 s))
  else .next s

/-! Version floor and revocation. -/

/-- A write of SEC_FUSECTRL (R437). -/
def wrSecFusectrl (a : Acc) (v : Word) (s : State) : State :=
  hostWrite a .sec rSecFusectrl dSecFusectrl .steward v
    (fun x s =>
      let svn := x.v.bit 63
      let rev := x.v.bit 62
      let slot := x.new.field 31 30
      let left := (List.range 4).any fun k => k != slot && slotUsable s k
      firstOf [((svn || rev) && x.v.field 55 48 != 0x5E, .illegalValue),
        (svn && rev, .illegalValue),
        ((svn || rev) && decide (1 ≤ hostate s ∧ hostate s ≤ 4), .wrongState),
        (svn && (match s.sec.running with | some f => decide (f.svn ≤ minSvn s) | none => true), .wrongState),
        (rev && ((match s.sec.running with | some f => f.slot == slot | none => false) || !left), .wrongState)])
    (fun x s =>
      if x.v.bit 63 then
        match s.sec.running with
        | some f => { s with sec := { s.sec with minSvnBurnt := f.svn } }
        | none => s
      else if x.v.bit 62 then
        { s with sec := { s.sec with keyRevBurnt := s.sec.keyRevBurnt ||| BitVec.ofNat 4 (2 ^ x.new.field 31 30) } }
      else s) s

/-- SVNGO (R437). -/
def execSvngo (a : Acc) (v : Word) (s : State) : Host.Outcome State Fault Refusal :=
  .next (wrSecFusectrl a (v ||| BitVec.ofNat 64 (2 ^ 63)) s)

/-- REVGO (R437). -/
def execRevgo (a : Acc) (v : Word) (s : State) : Host.Outcome State Fault Refusal :=
  .next (wrSecFusectrl a (v ||| BitVec.ofNat 64 (2 ^ 62)) s)

/-! The saddle controller. -/

/-- FCLK cycles of one hour at 1.5 GHz. -/
def scHour : Nat := 3600 * cycPerS
/-- The restarts within the last hour. -/
def recentRestarts (s : State) : List Nat := s.sec.restarts.filter fun c => decide (s.cyc < c + scHour)
/-- RAS_SCSTAT CODE and STATE. -/
def setSc (c : Code) (st : Nat) (s : State) : State :=
  rput (rput s .ras rRasScstat 63 48 c.toNat) .ras rRasScstat 1 0 st

/-- SC_FAULT (R388, R385): the controller stops at once. -/
def execScFault (c : ScCause) (s : State) : Host.Outcome State Fault Refusal :=
  if s.sec.running.isNone || scState s != 0 then .next s
  else
    let code : Code := match c with | .residue => .residueFault | .memory => .eccUncorrected
    .next (setSc code 1 { s with sec := { s.sec with scStopped := some code } })

/-- A failed probation: the old image runs again (R435). -/
def endProbation (s : State) : State :=
  match hostate s == hoPROBATION, s.sec.kept with
  | true, some old =>
    let s := nowRunning old { s with sec := { s.sec with kept := none } }
    settleLog (logEvent srcSaddle .fwRejected 0 (setHostate hoFAILED (setFwCode .fwRejected 0 s)))
  | _, _ => s

/-- Steps 1 to 4 of R388; `limit` says whether three restarts within one hour leave the controller HALTED. -/
def actWatchdog (limit : Bool) (s : State) : State :=
  let code := s.sec.scStopped.getD .scWatchdog
  let s := settleLog (raisePF0 1 (logEvent srcSaddle code 0 s))
  let s := endProbation s
  let s := { s with sec := { s.sec with scStopped := none } }
  if limit && decide (3 ≤ (recentRestarts s).length) then setSc .scWatchdog 2 s
  else
    match s.sec.running with
    | none => s
    | some f =>
      if (imageIn s.bup.imageRam f.half).digest ≠ f.digest then setSc .fwRejected 2 s
      else
        let s := { s with sec := { s.sec with restarts := s.cyc :: recentRestarts s, beatAt := s.cyc } }
        logEvent srcSaddle .scRestarted 0 (rsat (setSc .scRestarted 0 s) .ras rRasScstat 47 32 1)

/-- SC_WATCHDOG (R388, R435): SCBEAT has not advanced for 10 ms, or the controller has stopped. -/
def execScWatchdog (s : State) : Host.Outcome State Fault Refusal :=
  if s.sec.running.isNone || scState s == 2 then .next s
  else .next (actWatchdog true (if s.sec.scStopped.isSome then s else s.upTo (s.sec.beatAt + 10 * cycPerMs)))

/-- A write of RAS_SCCTRL (R390): RESTART also clears the restart count. -/
def wrRasScctrl (a : Acc) (v : Word) (s : State) : State :=
  hostWrite a .ras rRasScctrl dRasScctrl .anyPF0 v
    (fun x s => firstOf [(x.v.bit 0 && scState s == 1, .wrongState)])
    (fun x s =>
      if x.v.bit 0 then
        let s := actWatchdog false s
        { s with sec := { s.sec with restarts := [] } }
      else s) s

/-- SC_RESTART (R390). -/
def execScRestart (a : Acc) (v : Word) (s : State) : Host.Outcome State Fault Refusal :=
  .next (wrRasScctrl a (v ||| 1) s)

/-- SCBEAT_ADVANCE (R388, R435). -/
def execScbeatAdvance (s : State) : Host.Outcome State Fault Refusal :=
  if s.sec.running.isNone || scState s != 0 || debugStopped s 0 then .next s
  else
    let t := s.upTo (s.sec.beatAt + cycPerMs)
    .next (spendStep 0 s { t with sec := { t.sec with
      scBeat := (t.sec.scBeat + 1) % 2 ^ 32, beatAt := t.cyc, beatsLeft := t.sec.beatsLeft - 1 } })

/-- A write of SEC_ERRCODE. -/
def wrSecErrcode (a : Acc) (v : Word) (s : State) : State :=
  hostWrite a .sec rSecErrcode dSecErrcode .steward v noCheck (clearErr .sec rSecErrcode) s

end Sys2Proof.Machine
end

