-- ==== Sys2Proof/Machine/Host.lean ====
section
/-! DEFINITION. Host attachment: counter advances, completions, stewardship, PCIe resets, device memory windows (R174,
R311 to R323, R328, R331). -/
namespace Sys2Proof.Machine

/-! Counters and completions. -/

/-- Whether an add to SUB of a VALID queue would leave SUB − C above the job ring (R328). -/
def subFull (s : State) (p i amount : Nat) : Bool :=
  (List.range 16).any fun q => queueValid s p q && queueCounter s p q .sub == i &&
    decide (2 ^ (queueCfg s p q).field 59 56 + ((s.part p).hqOf q).c < hvValue s i + amount)

/-- A write of HVC_ADD (R174, R328). -/
def wrHvcAdd (a : Acc) (g i : Nat) (v : Word) (s : State) : State :=
  let who : Admit := match partOfGroup s g with | some p => .ownerVf p | none => .owner none
  hostWrite a (.hvc g) (rHvcAdd i) dHvcAdd who v
    (fun x s =>
      match partOfGroup s g with
      | some p => firstOf [(subFull s p (g * 64 + i) x.v.toNat, .queueFull)]
      | none => none)
    (fun x s => applyAdd ⟨0x400 + g, i⟩ x.v.toNat s) s

/-- HVC_ADD (R174, R328). -/
def execHvcAdd (a : Acc) (g i : Fin 64) (v : Word) (s : State) : Host.Outcome State Fault Refusal :=
  .next (wrHvcAdd a g i v s)

/-- The oldest waiting completion of a queue goes to the host ring, where there is room and the port's link is up. -/
def writeCompletion (p q : Nat) (s : State) : State :=
  let h := (s.part p).hqOf q
  let n := 2 ^ (queueCfg s p q).field 55 52
  let port := partPort s p
  match h.waiting with
  | [] => s
  | rec :: rest =>
    if n ≤ h.c - hvValue s (queueCounter s p q .cons) ∨ portUp s port = false then s
    else
      let s := postHost port ((rgEff s (.part p) (rPartQcplq q)).field 45 5 * 32 + 32 * (h.c % n)) rec s
      let s := setHq s p q { h with c := h.c + 1, waiting := rest }
      if (rg s (.part p) (rPartQcfgq q)).bit 62 then raiseVF p (3 + q) s else s

/-- COMPLETION_WRITE (R330, R331). -/
def execCompletionWrite (p : Fin 32) (q : Fin 16) (s : State) : Host.Outcome State Fault Refusal :=
  .next (writeCompletion p q s)

/-- The completions held for a port are written in order (R312). -/
def writeHeld (port : Bool) (s : State) : State :=
  (List.range 32).foldl (init := s) fun s p =>
    if partValid s p && partPort s p == port then
      (List.range 16).foldl (init := s) fun s q =>
        repeatUnits (writeCompletion p q) ((s.part p).hqOf q).waiting.length s
    else s

/-! Stewardship. -/

/-- Vector 0 on both ports. -/
def raiseSteward (s : State) : State := raisePF0 0 s

/-- A write of HIF_HBEAT (R322, R323): a heartbeat clears LAPSED and cancels a claim. -/
def wrHifHbeat (a : Acc) (v : Word) (s : State) : State :=
  let who : Admit := if a.port == stewardPort s then .self a.port else .steward
  hostWrite a (.hif a.port) rHifHbeat dHifHbeat who v noCheck
    (fun x s =>
      if a.half = .high then s
      else
        let s := rset s (.hif a.port) rHifHbeat ((x.old).put 31 0 ((x.old.field 31 0 + 1) % 2 ^ 32))
        let fence := fencing s
        let s := { s with steward := { s.steward with
          lapsed := false, lastBeat := s.cyc, claim := if fence then 2 else s.steward.claim } }
        if fence then raiseSteward (logEvent (srcPort a.port) .stewardCancelled 0 s) else s) s

/-- HBEAT (R322). -/
def execHbeat (a : Acc) (v : Word) (s : State) : Host.Outcome State Fault Refusal := .next (wrHifHbeat a v s)

/-- HBTIME and FENCE as the steward has set them. -/
def stewcfg (s : State) : Word := rg s (.hif (stewardPort s)) rHifStewcfg

/-- STEWARD_LAPSED (R322). -/
def execStewardLapsed (s : State) : Host.Outcome State Fault Refusal :=
  if s.steward.lapsed then .next s
  else
    let s := s.upTo (s.steward.lastBeat + (stewcfg s).field 15 0 * cycPerMs)
    let s := { s with steward := { s.steward with lapsed := true } }
    .next (raiseSteward (logEvent (srcPort (stewardPort s)) .stewardLapsed 0 s))

/-- A write of HIF_STEWARD: CLAIM (R323); one written while a fence runs changes nothing (log entry 73). -/
def wrHifSteward (a : Acc) (v : Word) (s : State) : State :=
  hostWrite a (.hif a.port) rHifSteward dHifSteward (.self a.port) v
    (fun x s => firstOf [(x.v.bit 7 && (!s.steward.lapsed || a.port == stewardPort s), .wrongState)])
    (fun x s =>
      if x.v.bit 7 && !fencing s then { s with steward := { s.steward with claim := 1, fenceFrom := s.cyc } } else s) s

/-- CLAIM (R323). -/
def execClaim (a : Acc) (v : Word) (s : State) : Host.Outcome State Fault Refusal := .next (wrHifSteward a (v ||| 0x80) s)

/-- FENCE_END (R323, R399): the claiming port becomes the steward; EN of LOG_DMA clears. -/
def execFenceEnd (s : State) : Host.Outcome State Fault Refusal :=
  if !fencing s then .next s
  else
    let s := s.upTo (s.steward.fenceFrom + (stewcfg s).field 47 32 * cycPerMs)
    let port := !(stewardPort s)
    let s := { s with steward := { s.steward with port := port, claim := 3, lastBeat := s.cyc } }
    .next (raiseSteward (logEvent (srcPort port) .stewardTaken 0 (rput s .ras rLogDma 63 63 0)))

/-- A write of HIF_STEWCFG. -/
def wrHifStewcfg (a : Acc) (v : Word) (s : State) : State :=
  hostWrite a (.hif a.port) rHifStewcfg dHifStewcfg .steward v
    (fun x _ =>
      let h := x.new.field 15 0
      let f := x.new.field 47 32
      firstOf [(decide (h < 100 ∨ 60000 < h ∨ f < 10 ∨ 10000 < f), .illegalValue)]) noAct s

/-- A write of HIF_BAR2BASE. -/
def wrHifBar2base (a : Acc) (v : Word) (s : State) : State :=
  hostWrite a (.hif a.port) rHifBar2base dHifBar2base (.self a.port) v
    (fun x _ => firstOf [(decide (9 < x.new.field 3 0), .outOfRange)]) noAct s
/-- A write of HIF_VECEN. -/
def wrHifVecen (a : Acc) (v : Word) (s : State) : State :=
  hostWrite a (.hif a.port) rHifVecen dHifVecen (.self a.port) v noCheck noAct s
/-- A write of HIF_ERRCODE. -/
def wrHifErrcode (a : Acc) (v : Word) (s : State) : State :=
  hostWrite a (.hif a.port) rHifErrcode dHifErrcode (.self a.port) v noCheck (clearErr (.hif a.port) rHifErrcode) s

/-! PCIe resets and link-up (R312). -/

/-- The registers of a port's HIF view at their reset values. -/
def resetHif (port : Bool) (s : State) : State :=
  let b := (Blk.hif port).base
  { s with regs := s.regs.filter fun e => !decide (b ≤ e.1 ∧ e.1 < b + 0x80000) }

/-- PCIE_RESET (R312). -/
def execPcieReset (port : Bool) (k : PcieReset) (s : State) : Host.Outcome State Fault Refusal :=
  match k with
  | .flrVf n =>
    let p := s.portOf port
    let keep (v : Nat) : Bool := v / 32 != n.val
    .next (s.setPort port { p with masked := p.masked.filter keep, msixPending := p.msixPending.filter keep })
  | .flrPf0 => .next (resetHif port (s.setPort port { up := (s.portOf port).up }))
  | _ => .next (resetHif port (s.setPort port {}))

/-- Pending vectors that are no longer held go out, in order. -/
def sendPending (port : Bool) (s : State) : State :=
  let p := s.portOf port
  let go := p.msixPending.filter fun v => !p.masked.contains v
  let s := s.setPort port { p with msixPending := p.msixPending.filter p.masked.contains }
  go.reverse.foldl (fun s v => s.send (.vector port (v / 32) (v % 32))) s

/-- PCIE_LINK_UP (R312): the link is up and the host has enumerated the port and enabled its virtual functions;
held completions are written and pending vectors go out. -/
def execPcieLinkUp (port : Bool) (s : State) : Host.Outcome State Fault Refusal :=
  if !s.bup.vglow then .next s
  else .next (sendPending port (writeHeld port (s.setPort port { s.portOf port with up := true, vfs := 32 })))

/-! Windows onto device memory (R316, R319, R320). -/

/-- The ranges of a partition in one stack, by BASE: sizes in granules. -/
def rangesByBase (s : State) (p k : Nat) : SMap Nat :=
  ((oldRanges s k).filter fun e => entryPart e.2 == p).foldl
    (fun m e => SMap.put (e.2.field 9 0) (e.2.field 41 32) m) []

/-- The pieces of VF BAR2: first address and size in bytes of each range of the partition. -/
def vfPieces (s : State) (p : Nat) : List (Nat × Nat) :=
  (List.range 8).flatMap fun k =>
    (rangesByBase s p k).map fun e => (stackBase k + e.1 * 0x4000000, e.2 * 0x4000000)

/-- The address at an offset of pieces laid end to end. -/
def pieceAt : List (Nat × Nat) → Nat → Option Nat
  | [], _ => none
  | (a, n) :: r, o => if o < n then some (a + o) else pieceAt r (o - n)

/-- The stack and address that a byte of a BAR2 window maps to, where it maps one (R316, R317, R319, R358). -/
def barPlace (s : State) (port : Bool) (vf off : Nat) : Option (Nat × Nat) :=
  if vf = 0 then
    if off < 0x1000000000 ∧ bupPast s 7 then
      match placeOf (rf s (.hif port) rHifBar2base 3 0 * 0x1000000000 + off) with
      | .stack k x =>
        if port == stewardPort s then some (k, x)
        else
          match rangeAt s k x with
          | some (p, _) => if partValid s p && partPort s p == port then some (k, x) else none
          | none => none
      | _ => none
    else none
  else
    let p := vf - 1
    if partValid s p && partPort s p == port then
      match pieceAt (vfPieces s p) off with
      | some a => (stackOf? a)
      | none => none
    else none
where
  /-- The stack of an address. -/
  stackOf? (a : Nat) : Option (Nat × Nat) :=
    match placeOf a with
    | .stack k x => some (k, x)
    | _ => none

/-- The runs of consecutive bytes of one granule that a host write of `bs` from `off` maps to. -/
def barRuns (s : State) (port : Bool) (vf : Nat) : Nat → List Byte → List (Nat × Nat × List Byte)
  | _, [] => []
  | off, b :: bs =>
    let rest := barRuns s port vf (off + 1) bs
    match barPlace s port vf off, rest with
    | none, _ => rest
    | some (k, x), (j, y, ds) :: more =>
      if j = k ∧ y = x + 1 ∧ y % 0x4000000 ≠ 0 ∧ (barPlace s port vf (off + 1)).isSome then (k, x, b :: ds) :: more else (k, x, [b]) :: rest
    | some (k, x), [] => [(k, x, [b])]

/-- The bytes of a host read, run after run; `none` where a codeword is poisoned or uncorrectable (R320). -/
def barRead : List (Nat × Nat × List Byte) → State → Option (List Byte) × State
  | [], s => (some [], s)
  | (k, x, ds) :: r, s =>
    match memRead (.stack k) x ds.length none (ordinaryAccess none k x ds.length s) with
    | (.uncorrected _, s) => (none, s)
    | (.data bs, s) =>
      match barRead r s with
      | (some rest, s) => (some (bs ++ rest), s)
      | (none, s) => (none, s)

/-- Whether a function is a VF that serves no partition through its port (R317). -/
def unservedVf (s : State) (port : Bool) (vf : Nat) : Bool :=
  vf != 0 && !(partValid s (vf - 1) && partPort s (vf - 1) == port)

/-- HOST_BAR_ACCESS (R316, R317, R319, R320): a read of an unmapped byte completes with Unsupported Request, unmapped bytes
of a write are dropped and the write is counted; through a VF that serves no partition bytes read as zero and writes are
rejected. -/
def execHostBarAccess (x : BarAccess) (s : State) : Host.Outcome State Fault Refusal :=
  if unservedVf s x.port x.vf then
    match x.op with
    | .read len => .next (s.send (.readReply x.port (some (List.replicate len 0))))
    | .write _ => .next (rejectWrite ⟨x.port, x.vf, .full⟩ (.part (x.vf.val - 1)) .notOwner s)
  else
  match x.op with
  | .read len =>
    if (List.range len).any fun i => (barPlace s x.port x.vf (x.off + i)).isNone then .next (s.send (.unsupported x.port))
    else
      let (r, s) := barRead (barRuns s x.port x.vf x.off (List.replicate len 0)) s
      .next (s.send (.readReply x.port r))
  | .write data =>
    let s' := (barRuns s x.port x.vf x.off data).foldl (init := s) fun s r =>
      memWrite none (.stack r.1) r.2.1 r.2.2 (ordinaryAccess none r.1 r.2.1 r.2.2.length s)
    if (List.range data.length).any fun i => (barPlace s x.port x.vf (x.off + i)).isNone then
      .next (rsat s' (.hif x.port) rHifErrcnt 31 0 1)
    else .next s'

end Sys2Proof.Machine
end

