-- ==== Sys2Proof/Machine/Rails.lean ====
section
/-! DEFINITION. The rails, their order and setpoints (R403 to R406). -/
namespace Sys2Proof.Machine

/-- The order of Table PWR-2 in the numbering of PWR_RAILr: VIO, VSAD, VSER, VMEM, VMEMQ, VCORE, and VGST on a
DH7-512G. -/
def railOrder : List Nat := [5, 1, 4, 2, 3, 0] ++ (if Config.variantG then [7] else [])
/-- STATE of a rail. -/
def railState (s : State) (r : Nat) : Nat := rf s .clk (rPwrRailr r) 2 0
/-- The state with STATE of a rail set. -/
def setRail (r st : Nat) (s : State) : State := rput s .clk (rPwrRailr r) 2 0 st
/-- The AVSBus select of a rail that takes its setpoint from there (R404). -/
def avsSelect (r : Nat) : Option Nat := if r = 0 then some 0 else if r = 1 then some 1 else if r = 7 then some 2 else none
/-- The setpoint of a rail at enable, in mV (Table PWR-1, R353, R405). -/
def railNominal (s : State) (r : Nat) : Nat :=
  match r with
  | 0 => Config.vnom
  | 1 => Config.vsadNom
  | 2 => 1050
  | 3 => 400
  | 4 => 900
  | 5 => 1800
  | 6 => 800
  | _ => rf s .gst rGstCtrl 51 40
/-- A setpoint is requested over AVSBus where the rail has one, and shown. -/
def requestSet (r mv : Nat) (s : State) : State :=
  let s := rput s .clk (rPwrRailr r) 31 20 mv
  match avsSelect r with
  | some x => s.send (.avsbus x mv)
  | none => s
/-- A rail is enabled: OPERATION on (R404, R406). -/
def enableRail (r : Nat) (s : State) : State := (setRail r 1 (requestSet r (railNominal s r) s)).send (.pmbus r true)
/-- A rail is turned off. -/
def disableRail (r : Nat) (s : State) : State := (setRail r 0 s).send (.pmbus r false)
/-- The rail at the present place of the order is enabled. -/
def enableNext (s : State) : State :=
  match railOrder[s.bup.railNext]? with
  | some r => enableRail r s
  | none => s
/-- Whether every rail of the order is in regulation. -/
def railsUp (s : State) : Bool := railOrder.all fun r => railState s r == 2
/-- THERMTRIP_N is low: from the latch of a shutdown until VGLOW is removed (R425, R461). -/
def thermtripLow (s : State) : Bool := (rg s .thm rThmState).bit 63
/-- ALERT_N is low (16_lands_electrical.md). -/
def alertLow (s : State) : Bool :=
  s.therm.seqFail || rf s .thm rThmSlow 2 0 != 0 || (List.range 8).any fun r => railState s r == 3 || railState s r == 4

end Sys2Proof.Machine
end

