-- ==== Sys2Proof/Machine/Guest.lean ====
section
/-! DEFINITION. The guest die: its link, the firewall and its configuration (R343 to R353). -/
namespace Sys2Proof.Machine

/-! Link. -/

/-- Whether messages pass: a DH7-512G whose link is ACTIVE and whose guest is out of reset. -/
def guestUp (s : State) : Bool := Config.variantG && rf s .gst rGstCtrl 10 8 == 2 && !(rg s .gst rGstCtrl).bit 1

/-- The guest is no longer reachable (R351). -/
def loseGuest (lstate : Nat) (s : State) : State :=
  raiseDevice (logEvent srcUcie .guestLinkDown 0 (rput (rput s .gst rGstCtrl 15 11 0) .gst rGstCtrl 10 8 lstate))

/-- The governing reading that THM_SENSn shows, in units of 0.25 °C. -/
def governOf (s : State) (n : Nat) : Int := signedOf 16 (rf s .thm (rThmSensn n) 31 16)

/-- VGST returns after a guest-site limit where every reading is below GTLIM - 10 °C (R426). -/
def guestCool (s : State) : Bool := (List.range 8).all fun k => decide (governOf s (1344 + k) < (Config.gtlim : Int) - 40)

/-- A new VSET is requested, and VGST comes back once GRESET is cleared after a guest-site limit (R353, R426). -/
def guestSupply (x : Written) (s : State) : State :=
  let s := if x.new.field 51 40 != x.old.field 51 40 then requestSet 7 (x.new.field 51 40) s else s
  if s.therm.guestHot && !x.new.bit 1 && guestCool s then
    enableRail 7 { s with therm := { s.therm with guestHot := false } }
  else s

/-- A write of GST_CTRL (R351, R353, R426). -/
def wrGstCtrl (a : Acc) (v : Word) (s : State) : State :=
  let who : Admit := if (v &&& halfBits a.half).bit 0 && !Config.variantG then .noOne else .steward
  hostWrite a .gst rGstCtrl dGstCtrl who v
    (fun x _ =>
      let n := x.new.field 51 40
      let nom := Config.gvnom.toNat
      firstOf [(n != x.old.field 51 40 && decide (n < 650 ∨ 1000 < n ∨ n + 50 < nom ∨ nom + 50 < n), .outOfRange)])
    (fun x s =>
      let s := guestSupply x s
      if s.therm.guestHot then s
      else if x.new.bit 1 && !x.old.bit 1 then loseGuest 0 s
      else if !x.new.bit 0 && x.old.bit 0 then
        (if x.old.field 10 8 = 2 then loseGuest 3 s else rput s .gst rGstCtrl 10 8 3)
      else if x.new.bit 0 && !x.new.bit 1 && (!x.old.bit 0 || x.old.bit 1) then rput s .gst rGstCtrl 10 8 1
      else s) s

/-- GRESET: a write of GST_CTRL (R351, R353). -/
def execGreset (a : Acc) (v : Word) (s : State) : Host.Outcome State Fault Refusal := .next (wrGstCtrl a v s)

/-- GUEST_LINK_ACTIVE (R343): the link has trained at a supported rate and width. -/
def execGuestLinkActive (speed width : Nat) (s : State) : Host.Outcome State Fault Refusal :=
  let w := rg s .gst rGstCtrl
  if Config.variantG && w.bit 0 && !w.bit 1 && decide (1 ≤ speed ∧ speed ≤ 6 ∧ 1 ≤ width ∧ width ≤ 3) then
    .next (rput (rput (rput s .gst rGstCtrl 15 13 speed) .gst rGstCtrl 12 11 width) .gst rGstCtrl 10 8 2)
  else .next s

/-- GUEST_LINK_DOWN (R351). -/
def execGuestLinkDown (s : State) : Host.Outcome State Fault Refusal :=
  if rf s .gst rGstCtrl 10 8 = 2 then .next (loseGuest 3 s) else .next s

/-! Messages. -/

/-- A refused message (R348). -/
def denyGuest (s : State) : State :=
  let s := rsat s .gst rGstDeny 47 0 1
  let ms := s.nowNs / 1000000
  let s :=
    if s.guest.deniedMs = some ms then s
    else
      let s := logEvent srcGuest .guestDenied 0 { s with guest := { s.guest with deniedMs := some ms } }
      if (rg s .gst rGstCtrl).bit 2 then raisePF0 6 s else s
  s.send (.guestReply .notOwner [])

/-- The limiter (R349): a message of `n` bytes waits until the bucket holds its charge. -/
def chargeGuest (n : Nat) (s : State) : State :=
  let pol := rgEff s .gst rGstPolicy
  let rate := pol.field 8 0
  let depth := pol.field 23 16 * 4096 * 3
  let missing := s.guest.missing - rate * (s.cyc - s.guest.at_)
  let wait := if missing + 3 * n ≤ depth then 0 else (missing + 3 * n - depth + rate - 1) / rate
  let s := s.upTo (s.cyc + wait)
  { s with guest := { s.guest with missing := missing - rate * wait + 3 * n, at_ := s.cyc } }

/-- The window of an address: the lowest-numbered valid one that contains it (R346, R352). -/
def guestWindow (s : State) (a : Nat) : Option Word :=
  (List.range 16).findSome? fun w =>
    let x := rgEff s .gst (rGstWinw w)
    let base := x.field 31 0 * 65536
    if x.bit 63 && partValid s (x.field 60 56) && decide (base ≤ a ∧ a < base + (x.field 55 32 + 1) * 65536) then some x
    else none

/-- The partition for which a RD or WR is admitted (R344, R346). -/
def guestAdmits (s : State) (kind a len : Nat) : Option Nat :=
  match guestWindow s a with
  | none => none
  | some x =>
    let p := x.field 60 56
    let whole := decide (a + len ≤ x.field 31 0 * 65536 + (x.field 55 32 + 1) * 65536)
    let shape := a % 64 == 0 && len % 64 == 0 && decide (64 ≤ len ∧ len ≤ 4096)
    if whole && shape && x.bit kind && (List.range (len / 64)).all fun i => (inRange s p (a + 64 * i)).isSome then some p
    else none

/-- GUEST_RD (R346, R348, R349). -/
def execGuestRd (addr len : Nat) (s : State) : Host.Outcome State Fault Refusal :=
  if !guestUp s then .next s
  else
    match guestAdmits s 61 addr len with
    | none => .next (denyGuest s)
    | some p =>
      match readSpan none p addr len (chargeGuest len s) with
      | (.ok bs, s) => .next (s.send (.guestReply .ok bs))
      | (.error c, s) => .next (s.send (.guestReply c []))

/-- GUEST_WR (R346, R348, R349). -/
def execGuestWr (addr : Nat) (data : List Byte) (s : State) : Host.Outcome State Fault Refusal :=
  if !guestUp s then .next s
  else
    match guestAdmits s 62 addr data.length with
    | none => .next (denyGuest s)
    | some p =>
      match writeSpan none p addr data (chargeGuest data.length s) with
      | .ok s => .next (s.send (.guestReply .ok []))
      | .error c => .next (s.send (.guestReply c []))

/-- Whether a counter lies in a valid range that permits an operation (R347, R352). -/
def guestCounter (s : State) (kind c : Nat) : Bool :=
  (List.range 8).any fun r =>
    let x := rgEff s .gst (rGstCntrr r)
    x.bit 63 && x.bit kind && partValid s (x.field 60 56) && decide (x.field 19 0 ≤ c ∧ c ≤ x.field 39 20)

/-- GUEST_CADD (R345, R347). -/
def execGuestCadd (c : BitVec 20) (amount : W32) (s : State) : Host.Outcome State Fault Refusal :=
  let x : Cnt := ⟨c.toNat / 256, c.toNat % 256⟩
  if !guestUp s then .next s
  else if guestCounter s 62 c.toNat && (holderOf s x).isSome && amount != 0 then
    let s := chargeGuest 64 s
    .next ((applyAdd x amount.toNat s).send (.guestReply .ok []))
  else .next (denyGuest s)

/-- GUEST_CRD (R347): value and saturated flag. -/
def execGuestCrd (c : BitVec 20) (s : State) : Host.Outcome State Fault Refusal :=
  let x : Cnt := ⟨c.toNat / 256, c.toNat % 256⟩
  if !guestUp s then .next s
  else
    match holderOf s x, guestCounter s 61 c.toNat with
    | some h, true =>
      let s := chargeGuest 64 s
      .next (s.send (.guestReply .ok (bytesOf 8 (holderValue s h) ++ [if holderSat s h then 1 else 0])))
    | _, _ => .next (denyGuest s)

/-- GUEST_OTHER_MESSAGE (R344): refused. -/
def execGuestOtherMessage (_isRead : Bool) (s : State) : Host.Outcome State Fault Refusal :=
  if guestUp s then .next (denyGuest s) else .next s

/-! Configuration of the firewall (R352). -/

/-- The registers with staged fields. -/
def guestRegs : List (Blk × Nat) :=
  [(Blk.gst, rGstPolicy)] ++ ((List.range 16).map fun w => (Blk.gst, rGstWinw w)) ++
    (List.range 8).map fun r => (Blk.gst, rGstCntrr r)

/-- Whether the bytes from `a` to below `e` lie in one of the ranges of Table PKG-4 that a window may reach. -/
def inStacks (a e : Nat) : Bool :=
  decide (e ≤ 0x3000000000 ∨ (0x4000000000 ≤ a ∧ e ≤ 0x6000000000) ∨ (0x8000000000 ≤ a ∧ e ≤ 0xA000000000))

/-- The code of the first failing check of a firewall commit. -/
def guestCheck (s : State) : Option Code :=
  let wins := ((List.range 16).map fun w => rg s .gst (rGstWinw w)).filter fun x => x.bit 63
  let cnts := ((List.range 8).map fun r => rg s .gst (rGstCntrr r)).filter fun x => x.bit 63
  firstOf [
    (wins.any fun x => !inStacks (x.field 31 0 * 65536) ((x.field 31 0 + x.field 55 32 + 1) * 65536), .illegalValue),
    ((wins ++ cnts).any fun x => !partValid s (x.field 60 56), .illegalValue),
    (cnts.any fun x => decide (x.field 39 20 < x.field 19 0), .illegalValue),
    (cnts.any fun x => (List.range (x.field 39 20 + 1 - x.field 19 0)).any fun i =>
      let c := x.field 19 0 + i
      (holderOf s ⟨c / 256, c % 256⟩).bind (holderPart s) != some (x.field 60 56), .outOfRange)]

/-- A write of GST_COMMIT: the commit is made at once. -/
def wrGstCommit (a : Acc) (v : Word) (s : State) : State :=
  hostWrite a .gst rGstCommit dGstCommit .steward v
    (fun x _ => firstOf [(x.v.bit 63 && x.v.bit 62, .illegalValue)])
    (fun x s =>
      if x.v.bit 63 then
        match guestCheck s with
        | some c => rput (rput s .gst rGstCommit 57 56 2) .gst rGstCommit 15 0 c.toNat
        | none => rput (rput (guestRegs.foldl (fun s r => applyReg r s) s) .gst rGstCommit 57 56 1) .gst rGstCommit 15 0 0
      else if x.v.bit 62 then guestRegs.foldl (fun s r => discardReg r s) s
      else s) s

/-- GST_COMMIT (R352). -/
def execGstCommit (a : Acc) (v : Word) (s : State) : Host.Outcome State Fault Refusal :=
  .next (wrGstCommit a (v ||| BitVec.ofNat 64 (2 ^ 63)) s)
/-- DISCARD in GST_COMMIT. -/
def execGstDiscard (a : Acc) (v : Word) (s : State) : Host.Outcome State Fault Refusal :=
  .next (wrGstCommit a (v ||| BitVec.ofNat 64 (2 ^ 62)) s)

/-- A write of GST_WINw; on a DH7-512A none may set VALID (R2). -/
def wrGstWin (a : Acc) (w : Nat) (v : Word) (s : State) : State :=
  let who : Admit := if (v &&& halfBits a.half).bit 63 && !Config.variantG then .noOne else .steward
  hostWrite a .gst (rGstWinw w) dGstWinw who v noCheck noAct s
/-- A write of GST_CNTRr. -/
def wrGstCntr (a : Acc) (r : Nat) (v : Word) (s : State) : State :=
  hostWrite a .gst (rGstCntrr r) dGstCntrr .steward v noCheck noAct s
/-- A write of GST_POLICY. -/
def wrGstPolicy (a : Acc) (v : Word) (s : State) : State :=
  hostWrite a .gst rGstPolicy dGstPolicy .steward v
    (fun x _ => firstOf [(decide (x.new.field 8 0 = 0 ∨ 256 < x.new.field 8 0 ∨ x.new.field 23 16 = 0), .illegalValue)])
    noAct s
/-- A write of GST_ERRCODE. -/
def wrGstErrcode (a : Acc) (v : Word) (s : State) : State :=
  hostWrite a .gst rGstErrcode dGstErrcode .steward v noCheck (clearErr .gst rGstErrcode) s

end Sys2Proof.Machine
end

