-- ==== Sys2Proof/Machine/Ridge.lean ====
section
/-! DEFINITION. Ridge modules: lanes, width codes, holds and one-sided resets (R335 to R341). -/
namespace Sys2Proof.Machine

/-- The lanes that D2D_RFUSEm excludes in one direction; `sp` is saddle to peak (R339). -/
def fusedLanes (m : Nat) (sp : Bool) : List Nat :=
  let w := (Config.ridgeFuse m).toNat
  (List.range 4).filterMap fun i =>
    let b := bitsOf w (8 * i + 7 + if sp then 32 else 0) (8 * i + if sp then 32 else 0)
    if b.testBit 7 then some (b % 128) else none

/-- Width code of a direction with `g` good lanes (R337). -/
def widthCode (g : Nat) : Nat := if 64 ≤ g then 3 else if 32 ≤ g then 2 else if 16 ≤ g then 1 else 0

/-- Good lanes of the 68, less the bad ones. -/
def goodLanes (bad : List Nat) : Nat := (List.range 68).countP fun l => !bad.contains l

/-- STATE DOWN, TRAIN, UP and HELD of a module. -/
def modDOWN : Nat := 0
/-- STATE TRAIN. -/
def modTRAIN : Nat := 1
/-- STATE UP. -/
def modUP : Nat := 2
/-- STATE HELD. -/
def modHELD : Nat := 3
/-- STATE of a module. -/
def modState (s : State) (m : Nat) : Nat := rf s .d2d (rD2dModstatm m) 2 0
/-- The state with STATE set. -/
def setModState (m st : Nat) (s : State) : State := rput s .d2d (rD2dModstatm m) 2 0 st
/-- WPK. -/
def wpk (s : State) (m : Nat) : Nat := rf s .d2d (rD2dModstatm m) 21 20
/-- WSD. -/
def wsd (s : State) (m : Nat) : Nat := rf s .d2d (rD2dModstatm m) 19 18

/-- GOODPS and GOODSP follow the lanes. -/
def showGood (m : Nat) (s : State) : State :=
  let r := s.ridgeMod m
  rput (rput s .d2d (rD2dModstatm m) 39 33 (goodLanes r.badPS)) .d2d (rD2dModstatm m) 31 25 (goodLanes r.badSP)

/-- RIDGE_DEGRADED is reported to every RUNNING partition where a step has changed whether the peak's link is degraded
(R338). -/
def noteDegraded (peak : Nat) (before : Bool) (m : Nat) (s : State) : State :=
  if linkDegraded s peak = before then s
  else (List.range 32).foldl (init := s) fun s p => reportBreakRunning p 0x0C 0xF 0xFFFF (srcRidge m) s

/-- A module is HELD (R338, R340): logged, counted, and the link's state announced. -/
def holdModule (m : Nat) (s : State) : State :=
  let before := linkDegraded s (m / 64)
  let s := rsat s .d2d (rD2dModstatm m) 47 40 1
  noteDegraded (m / 64) before m (logEvent (srcRidge m) .ridgeModuleHeld 0 (setModState m modHELD s))

/-- RIDGE_LANE_BAD (R340): the lane is bad and the module HELD at once. -/
def execRidgeLaneBad (m : Fin 128) (b : RidgeBad) (s : State) : Host.Outcome State Fault Refusal :=
  if modState s m ≠ modUP then .next s
  else
    let r := s.ridgeMod m
    let r := if b.toSaddle then { r with badPS := b.lane.val :: r.badPS } else { r with badSP := b.lane.val :: r.badSP }
    let s := if b.uncorrectable then s else rsat s .d2d (rD2dModstatm m) 63 48 17
    .next (holdModule m (showGood m (s.setRidge m { r with retrained := false, agreed := false, mismatch := false })))

/-- The codes that the two sides find: the narrower of what the own receiver finds and what the other side last
reported (R341). -/
def renewCodes (m : Nat) (s : State) : State :=
  let r := s.ridgeMod m
  let pk := min (widthCode (goodLanes r.badSP)) (wsd s m)
  let sd := min (widthCode (goodLanes r.badPS)) (wpk s m)
  rput (rput s .d2d (rD2dModstatm m) 21 20 pk) .d2d (rD2dModstatm m) 19 18 sd

/-- RIDGE_RETRAINED (R340): both sides have retrained the module. -/
def execRidgeRetrained (m : Fin 128) (s : State) : Host.Outcome State Fault Refusal :=
  let r := s.ridgeMod m
  if modState s m ≠ modHELD ∨ r.retest ≠ [] ∨ widthCode (min (goodLanes r.badPS) (goodLanes r.badSP)) = 0 then .next s
  else .next (renewCodes m (showGood m (s.setRidge m { r with retrained := true })))

/-- RIDGE_HANDSHAKE (R341): codes that differ are logged, and adopted at their narrower value by the next one. -/
def execRidgeHandshake (m : Fin 128) (s : State) : Host.Outcome State Fault Refusal :=
  let r := s.ridgeMod m
  let a := wpk s m
  let b := wsd s m
  if modState s m ≠ modHELD ∨ r.retest ≠ [] then .next s
  else if a = b then .next (s.setRidge m { r with agreed := true, mismatch := false })
  else if r.mismatch then
    let s := rput (rput s .d2d (rD2dModstatm m) 21 20 (min a b)) .d2d (rD2dModstatm m) 19 18 (min a b)
    .next (s.setRidge m { r with agreed := true, mismatch := false, retrained := false })
  else .next (logEvent (srcRidge m) .ridgeWidthMismatch 0 (s.setRidge m { r with mismatch := true }))

/-- Whether a module returns to traffic at the next epoch mark (R340). -/
def moduleReturns (s : State) (m : Nat) : Bool :=
  let r := s.ridgeMod m
  modState s m == modHELD && r.retest == [] && r.agreed && r.retrained && wpk s m == wsd s m && wpk s m != 0

/-- A module returns at an epoch mark (R338, R340). -/
def returnModule (m : Nat) (s : State) : State :=
  if moduleReturns s m then
    let before := linkDegraded s (m / 64)
    noteDegraded (m / 64) before m (setModState m modUP (rput s .d2d (rD2dModstatm m) 17 16 (wpk s m)))
  else s

/-- A write of D2D_MODCTRLm (R341). -/
def wrD2dModctrl (a : Acc) (m : Nat) (v : Word) (s : State) : State :=
  hostWrite a .d2d (rD2dModctrlm m) dD2dModctrlm .steward v
    (fun x s => firstOf [(x.v.field 1 0 != 0 && modState s m == modDOWN, .wrongState)])
    (fun x s =>
      if x.v.field 1 0 = 0 then s
      else
        let r := s.ridgeMod m
        let add (on side : Bool) (l : List Bool) : List Bool := if on && !l.contains side then side :: l else l
        let s := s.setRidge m { r with
          retest := add (x.v.bit 0) true (add (x.v.bit 1) false r.retest)
          retrained := false, agreed := false, mismatch := false }
        if modState s m = modHELD then s else holdModule m s) s

/-- RSTSIDE (R341). -/
def execRstside (a : Acc) (m : Fin 128) (v : Word) (s : State) : Host.Outcome State Fault Refusal :=
  .next (wrD2dModctrl a m v s)

/-- RIDGE_RETEST_DONE (R341): the reset side's receiver has found its bad lanes, and its code follows. -/
def execRidgeRetestDone (m : Fin 128) (peakSide : Bool) (bad : List Nat) (s : State) : Host.Outcome State Fault Refusal :=
  let r := s.ridgeMod m
  if !r.retest.contains peakSide then .next s
  else
    let lanes := fusedLanes m peakSide ++ bad
    let r := { r with retest := r.retest.filter (· != peakSide) }
    let s := showGood m (s.setRidge m (if peakSide then { r with badSP := lanes } else { r with badPS := lanes }))
    let w := widthCode (goodLanes lanes)
    .next (if peakSide then rput s .d2d (rD2dModstatm m) 21 20 (min w (wsd s m))
      else rput s .d2d (rD2dModstatm m) 19 18 (min w (wpk s m)))

/-- A write of D2D_ERRCODE. -/
def wrD2dErrcode (a : Acc) (v : Word) (s : State) : State :=
  hostWrite a .d2d rD2dErrcode dD2dErrcode .steward v noCheck (clearErr .d2d rD2dErrcode) s

end Sys2Proof.Machine
end

