-- ==== Sys2Proof/Machine/Bringup.lean ====
section
/-! DEFINITION. Power-up and the twelve steps of bring-up (R342, R354 to R370, R404 to R406, R458, R459). -/
namespace Sys2Proof.Machine

/-! BUP_STATE. -/

/-- STEP. -/
def bupStep (s : State) : Nat := rf s .bup rBupState 47 44
/-- STATUS: 0 idle, 1 BUSY, 2 DONE, 3 FAILED. -/
def bupStatus (s : State) : Nat := rf s .bup rBupState 43 42
/-- BUP_STATE. -/
def setBup (code : Code) (step status : Nat) (skipped : Bool) (elapsed : Nat) (s : State) : State :=
  rset s .bup rBupState (BitVec.ofNat 64 (code.toNat * 2 ^ 48 + step * 2 ^ 44 + status * 2 ^ 42 +
    (if skipped then 2 ^ 41 else 0) + elapsed % 2 ^ 32))
/-- A step starts: STATUS BUSY (R355). -/
def beginStep (n : Nat) (s : State) : State :=
  setBup 0 n 1 false 0 { s with bup := { s.bup with stepFrom := s.cyc } }

/-! Power-up. -/

/-- VGLOW_UP (R342, R406, R458): the glow domain starts, reads the fuses and samples STWD_SEL; bring-up step 1 begins, and
the rails follow while TEST_N is high (R459). -/
def execVglowUp (strap fusesOk : Bool) (s : State) : Host.Outcome State Fault Refusal :=
  if s.bup.vglow then .next s
  else
    let s := { s with bup := { s.bup with vglow := true, fusesRead := fusesOk, railNext := 0, retries := 0 }
                      steward := { s.steward with port := strap, strap := strap, lastBeat := s.cyc } }
    let s := rput (setRail 6 2 (rput s .clk (rPwrRailr 6) 31 20 800)) .gst rGstCtrl 51 40 Config.gvnom.toNat
    let s := if fusesOk then s else logEvent srcFuse .fuseFault 0 s
    let s := beginStep 1 s
    .next (if s.bup.testN then enableNext s else s)

/-- TEST_N_RELEASE (R459). -/
def execTestNRelease (s : State) : Host.Outcome State Fault Refusal :=
  if s.bup.testN then .next s
  else
    let s := { s with bup := { s.bup with testN := true } }
    .next (if s.bup.vglow then enableNext s else s)

/-- RAIL_IN_REGULATION (R406): the rail that ramps is in regulation, and the next one is enabled. -/
def execRailInRegulation (r : Fin 8) (s : State) : Host.Outcome State Fault Refusal :=
  if railOrder[s.bup.railNext]? ≠ some r.val ∨ railState s r ≠ 1 then .next s
  else
    let s := setRail r 2 s
    .next (enableNext { s with bup := { s.bup with railNext := s.bup.railNext + 1 } })

/-- RAIL_SEQ_FAIL (R406): the enabled rails go off in reverse order, and ALERT_N is driven low. -/
def execRailSeqFail (r : Fin 8) (s : State) : Host.Outcome State Fault Refusal :=
  if railOrder[s.bup.railNext]? ≠ some r.val ∨ railState s r ≠ 1 then .next s
  else
    let on := (railOrder.take (s.bup.railNext + 1)).reverse
    let s := setRail r 4 (on.foldl (fun s x => disableRail x s) s)
    .next { s with therm := { s.therm with seqFail := true } }

/-- RAIL_SEQ_RETRY (R406): a second later the whole order is tried again, at most three times. -/
def execRailSeqRetry (s : State) : Host.Outcome State Fault Refusal :=
  if !s.therm.seqFail || decide (3 ≤ s.bup.retries) || !s.bup.vglow then .next s
  else
    let s := s.upTo (s.cyc + cycPerS)
    let s := railOrder.foldl (fun s x => setRail x 0 s) s
    .next (enableNext { s with bup := { s.bup with railNext := 0, retries := s.bup.retries + 1 }
                               therm := { s.therm with seqFail := false } })

/-- VGLOW_LOSS (R304, R342, R378, R395): all is lost that the cairn, burnt fuses and the hosts' memories do not keep. -/
def execVglowLoss (s : State) : Host.Outcome State Fault Refusal :=
  .next { State.reset with
    pending := s.pending, free := s.free, flt := s.flt, sent := s.sent, hostMem0 := s.hostMem0, hostMem1 := s.hostMem1
    cairn := s.cairn
    bup := { records := s.bup.records }
    sec := { keyRevBurnt := s.sec.keyRevBurnt, minSvnBurnt := s.sec.minSvnBurnt } }

/-! Starting and skipping steps. -/

/-- POSOK: every die reads the position of its slot (R342). -/
def posOk : Bool :=
  let w := Config.positions
  !w.bit 0 && w.bit 1 && (List.range 8).all fun k => w.field (3 * k + 10) (3 * k + 8) == k

/-- D2D_FID0, bits 31:0 (R1, R3). -/
def fid0 : Nat :=
  0xD407 * 2 ^ 16 + Config.letter.toNat * 2 ^ 8 + Config.digit.toNat * 2 ^ 4 + (if Config.variantG then 1 else 0)

/-- The largest training record. -/
def recordMax : Nat := 0x400000

/-- The reasons for which a record is ignored (R360): REASON 4 and then 1, 2 and 3 as far as they apply. -/
def recordReasons (m : Mem) (a : Nat) : List Nat :=
  let size := m.readNat (a + 0x14) 4
  let sizeOk := decide (112 ≤ size ∧ size ≤ recordMax)
  let shape := m.readNat a 4 == 0x43455254 && m.readNat (a + 4) 2 == 1 && sizeOk
  (if sizeOk && bytesOf 48 (Config.recordMac (m.readBytes a (size - 48))).toNat == m.readBytes (a + size - 48) 48 then [] else [1]) ++
    (if m.readNat (a + 8) 8 = Config.serial.toNat then [] else [2]) ++
    (if m.readNat (a + 0x10) 4 = fid0 then [] else [3]) ++
    (if shape then [] else [4])

/-- What the sections of a verified record say: those of a record that this device wrote, else free (log entry 2). -/
def recordOf (s : State) (bs : List Byte) : TrainRec :=
  (s.bup.records.find? fun r => r.sections == bs).getD ⟨bs, Config.recordTiles bs, Config.recordBanks bs⟩

/-- The record is read and verified at the start of step 5 (R360); among several reasons to ignore it, which one is shown
is free. -/
def readRecord (s : State) : State :=
  let port := stewardPort s
  let m := s.hostMem port
  let a := rf s .bup rBupTrrec 45 12 * 4096
  let size := m.readNat (a + 0x14) 4
  let bad := if portUp s port then recordReasons m a else [5]
  match bad with
  | [] =>
    let r := recordOf s (m.readBytes (a + 0x40) (size - 112))
    rset { s with bup := { s.bup with record := some r } } .bup rBupTrrecstat (BitVec.ofNat 64 (2 ^ 42 + size))
  | bad =>
    let (n, s) := s.draw
    let reason := bad.getD (n % bad.length) 1
    logEvent srcBup .recordIgnored 0
      (rset s .bup rBupTrrecstat (BitVec.ofNat 64
        (Code.recordIgnored.toNat * 2 ^ 48 + reason * 2 ^ 44 + 2 * 2 ^ 42 + (if portUp s port then size % 2 ^ 23 else 0))))

/-- The stacks that take part in steps 7 and 8: those that have not failed (R364). -/
def goodStacks (s : State) : List Nat := (List.range 8).filter fun k => !stackFailed s k
/-- MEMC_STATE STATE of a stack. -/
def setStackState (k st : Nat) (s : State) : State := rput s (.memc k) rMemcState 7 4 st

/-- A stack bank retired into its channel's spare without a copy, as a record or the march gives (R361, R365). -/
def retireBank (k ch bank : Nat) (s : State) : State :=
  renewSpare k (s.setStack k { s.stack k with
    sparesUsed := SMap.put ch 1 (s.stack k).sparesUsed, retired := (s.stack k).retired ++ [(ch, bank)] })

/-- The bank retirements of a record take effect before step 8 (R361). -/
def applyRecordBanks (s : State) : State :=
  match s.bup.record with
  | some r => r.banks.foldl (fun s x => if spareFree s x.1 x.2.1 then retireBank x.1 x.2.1 x.2.2 s else s) s
  | none => s

/-- What GO of a step starts. -/
def onGo (n : Nat) (s : State) : State :=
  match n with
  | 5 =>
    let s := if (rg s .bup rBupCtrl).bit 1 then readRecord s else s
    (List.range 128).foldl (fun s m => setModState m modTRAIN s) s
  | 6 => (List.range 8).foldl (fun s k => setStackState k 1 s) s
  | 7 =>
    let s := (goodStacks s).foldl (fun s k => setStackState k 2 s) s
    (List.range 544).foldl (fun s h => rput s (.tile h) rTileSlState 0 0 1) s
  | 8 => applyRecordBanks s
  | 10 => trainEnabled s
  | _ => s

/-- What SKIP of a step does beside ending it. -/
def onSkip (n : Nat) (s : State) : State :=
  if n = 8 then applyRecordBanks s else if n = 10 then trainEnabled s else s

/-- Whether step `n` is the next to start: the one before is DONE or skipped, or step 4 has failed (R354, R357). -/
def mayStart (s : State) (n : Nat) : Bool :=
  let w := rg s .bup rBupState
  (w.field 47 44 + 1 == n && (w.field 43 42 == 2 || w.bit 41)) || (n == 4 && w.field 47 44 == 4 && w.field 43 42 == 3)

/-- FCLK cycles of the running step in ms. -/
def stepMs (s : State) : Nat := (s.cyc - s.bup.stepFrom) / cycPerMs

/-- A write of BUP_CTRL: GO and SKIP (R354 to R357). -/
def wrBupCtrl (a : Acc) (v : Word) (s : State) : State :=
  hostWrite a .bup rBupCtrl dBupCtrl .steward v
    (fun x s =>
      let go := x.v.bit 63
      let skip := x.v.bit 62
      let n := x.new.field 11 8
      let ending := skip && n == 11 && bupStep s == 11 && bupStatus s == 1
      firstOf [((go || skip) && decide (n < 4 ∨ 11 < n), .illegalValue), (go && skip, .illegalValue),
        (skip && !(n == 8 || n == 10 || n == 11), .illegalValue),
        ((go || skip) && !ending && (bupStatus s == 1 || !mayStart s n), .wrongState)])
    (fun x s =>
      let n := x.new.field 11 8
      if x.v.bit 63 then onGo n (beginStep n s)
      else if x.v.bit 62 then
        if bupStatus s = 1 then raisePF0 8 (setBup 0 11 2 true (stepMs s) s)
        else onSkip n (setBup 0 n 0 true 0 s)
      else s) s

/-- BUP_GO (R354). -/
def execBupGo (a : Acc) (v : Word) (s : State) : Host.Outcome State Fault Refusal :=
  .next (wrBupCtrl a (v ||| BitVec.ofNat 64 (2 ^ 63)) s)

/-- BUP_SKIP (R356). -/
def execBupSkip (a : Acc) (v : Word) (s : State) : Host.Outcome State Fault Refusal :=
  .next (wrBupCtrl a (v ||| BitVec.ofNat 64 (2 ^ 62)) s)

/-! What the steps find. -/

/-- The result of a step: whether it ends DONE, and its CODE. -/
structure StepEnd where
  done : Bool
  code : Code
  deriving DecidableEq, Repr

/-- The step DONE with OK. -/
def stepOk : StepEnd := ⟨true, 0⟩

/-- Step 3: the identity (R342, R357). -/
def endStep3 (s : State) : StepEnd × State :=
  if s.bup.fusesRead && posOk then (stepOk, s)
  else (⟨false, .fuseFault⟩, if s.bup.fusesRead then logEvent srcFuse .fuseFault 0 s else s)

/-- Step 4: the image in half 0 (R359, R431, R432). -/
def endStep4 (s : State) : StepEnd × State :=
  match fwCheck s false with
  | some r => (⟨false, .fwRejected⟩, setFwCode .fwRejected r s)
  | none =>
    let s := rput (nowRunning (imageIn s.bup.imageRam false) (setFwCode .ok 0 s)) .ras rRasScstat 1 0 0
    (stepOk, { s with sec := { s.sec with scStopped := none, beatAt := s.cyc } })

/-- One module after training (R337, R339, R363). -/
def trainModule (m : Nat) (f : Option RidgeFinding) (s : State) : State :=
  let ps := fusedLanes m false ++ (match f with | some f => f.badPS.map (·.val) | none => [])
  let sp := fusedLanes m true ++ (match f with | some f => f.badSP.map (·.val) | none => [])
  let w := widthCode (min (goodLanes ps) (goodLanes sp))
  let s := showGood m (s.setRidge m { badPS := ps, badSP := sp })
  let s := rput (rput (rput s .d2d (rD2dModstatm m) 21 20 w) .d2d (rD2dModstatm m) 19 18 w) .d2d (rD2dModstatm m) 17 16 w
  if w = 0 then logEvent (srcRidge m) .trainFailed 0 (setModState m modHELD s) else setModState m modUP s

/-- Modules of a ridge link that are UP. -/
def modulesUp (s : State) (peak : Nat) : Nat := (List.range 64).countP fun j => modState s (64 * peak + j) == modUP

/-- Step 5: ridge training (R357, R363). -/
def endStep5 (r : BupFindings) (s : State) : StepEnd × State :=
  let s := (List.range 128).foldl (fun s m => trainModule m (r.ridge.find? fun f => f.m == m) s) s
  let a := modulesUp s 0
  let b := modulesUp s 1
  (⟨decide (32 ≤ a ∧ 32 ≤ b), if a + b = 128 then 0 else .trainFailed⟩, s)

/-- Step 6: stack training, and margins where MARGIN asks for them (R357, R364). -/
def endStep6 (r : BupFindings) (s : State) : StepEnd × State :=
  let failed := r.failedStacks.toNat
  let s := rput s .bup rBupMemres 7 0 failed
  let s := (List.range 8).foldl (fun s k => setStackState k (if failed.testBit k then 0 else 3) s) s
  let s := if (rg s .bup rBupCtrl).bit 0 then
      r.margins.foldl (fun s x =>
        if failed.testBit x.1 then s
        else (x.2.take 32).zipIdx.foldl (fun s y => noteMargin x.1 y.2 (rf s (.memc x.1) rMemcMargctrl 3 2) y.1 s) s) s
    else s
  (⟨failed != 255, if failed = 0 then 0 else .trainFailed⟩, s)

/-- Accumulator banks, weight blocks and commit buffers of a tile after a fill (R224). -/
def Tile.cleared (t : Tile) : Tile :=
  { t with acc := [], poison := [], shadow := none, active := none, loadDue := none, group := none, store := [], slice := [] }
/-- The error patterns of a memory dropped. -/
def clearEcc (i : MemId) (s : State) : State := { s with ecc := SMap.drop i.key s.ecc }
/-- A tile's memories filled (R224). -/
def fillTile (h : Nat) (s : State) : State := clearEcc (.slice h) (clearEcc (.store h) (s.updTile h Tile.cleared))

/-- Step 7: the fill (R224). -/
def endStep7 (s : State) : StepEnd × State :=
  let s := (List.range 544).foldl (fun s h => rput (fillTile h s) (.tile h) rTileSlState 0 0 0) s
  let s := (goodStacks s).foldl (fun s k => setStackState k 3 (memFill (.stack k) (stackBase k) (stackSize k) s)) s
  (stepOk, (List.range 512).foldl (fun s k => clearEcc (.ls k) (s.setGrotto k { s.grotto k with ls := [] })) s)

/-- The march in one channel: the first faulty bank takes the spare where that is free and good (R365). -/
def marchChannel (k c : Nat) (bad : List (Fin 8 × Fin 32 × Fin 49)) (s : State) : Bool × State :=
  let mine := (bad.filter fun x => x.1.val == k && x.2.1.val == c).map (·.2.2.val)
  let banks := (List.range (stackBanks k)).filter mine.contains
  match banks with
  | [] => (false, s)
  | b :: rest =>
    if spareFree s k c && !mine.contains (stackBanks k) then (!rest.isEmpty, retireBank k c b s) else (true, s)

/-- The march of one stack: its MARCHBAD bit, the granules listed and counted, and the closing fill (R365). -/
def marchStack (r : BupFindings) (s : State) (k : Nat) : State :=
  let (bad, s) := (List.range 32).foldl (init := (false, s)) fun x c =>
    let (b, s) := marchChannel k c r.marchBad x.2
    (x.1 || b, s)
  let gran := if bad then (r.badGranules.filter fun g => g.1.val == k).map (·.2) else []
  let s := (gran.take 16).foldl (fun s g => settleLog (logEvent (srcStack k) .marchFailed g s)) s
  let s := rsat s .bup rBupMemres 63 32 (gran.length - 16)
  let s := rput s .bup rBupMemres (8 + k) (8 + k) 1
  let s := if bad then rput s .bup rBupMemres (16 + k) (16 + k) 1 else s
  memFill (.stack k) (stackBase k) (stackSize k) s

/-- Step 8: the march (R365). -/
def endStep8 (r : BupFindings) (s : State) : StepEnd × State :=
  let s := (goodStacks s).foldl (marchStack r) s
  (⟨true, if rf s .bup rBupMemres 23 16 = 0 then 0 else .marchFailed⟩, s)

/-- Weak rows that a finding names in one bank. -/
def weakIn (f : TileFinding) (b : Nat) : List Nat := (f.weakRows.filter fun x => x.1.val == b).map (·.2.val)

/-- Whether a finding retires its tile (R58, R367). -/
def retires (f : TileFinding) : Bool :=
  decide (8 < f.badCols.length) || f.checkColBad || decide (1 < f.badRows.length) || (!f.badRows.isEmpty && f.spareRowBad) ||
    (List.range 64).any (fun b => decide (32 < (weakIn f b).length)) || f.otherFault

/-- The columns that the array bypasses: the bad ones, and in a 120-class tile every good one beyond the 120
lowest-numbered (R59). -/
def bypassCols (cls : Nat) (bad : List Nat) : List Nat :=
  if cls = 120 then
    let used := ((List.range 128).filter fun j => !bad.contains j).take 120
    (List.range 128).filter fun j => !used.contains j
  else bad

/-- The self-test's results in one tile: TILE_MX_CAP, TILE_MX_COLBAD, weak rows on spares (R58 to R61, R74, R367). -/
def testTile (h : Nat) (f : Option TileFinding) (s : State) : State :=
  let f := f.getD ⟨0, [], [], false, false, [], false⟩
  let cols := f.badCols.map (·.val)
  let dead := retires f
  let cls := if dead then 0 else if cols.isEmpty then 128 else 120
  let used := !dead && !f.badRows.isEmpty
  let cap := (if used then 1 else 0) + (if f.spareRowBad then 0 else 2) + (if f.checkColBad then 0 else 4) +
    (match used, f.badRows with | true, r :: _ => r.val | _, _ => 0xFF) * 2 ^ 8 + (128 - cols.length) * 2 ^ 16 + cls * 2 ^ 24
  let off := bypassCols cls cols
  let bits (lo : Nat) : Nat := ((List.range 64).filter fun j => off.contains (lo + j)).foldl (fun n j => n + 2 ^ j) 0
  let s := rset s (.tile h) rTileMxCap (BitVec.ofNat 64 cap)
  let s := rset (rset s (.tile h) rTileMxColbad0 (BitVec.ofNat 64 (bits 0))) (.tile h) rTileMxColbad1 (BitVec.ofNat 64 (bits 64))
  let s := rset s (.tile h) rTileMxColbad2 (if f.checkColBad then 1 else 0)
  let rows := (List.range 64).flatMap fun b => (weakIn f b).zipIdx.map fun x => (b * 4096 + x.1, x.2)
  fillTile h (s.updTile h fun y => { y with
    spareUsed := (List.range 64).foldl
      (fun m b => if (weakIn f b).isEmpty then m else SMap.put b (min 32 (weakIn f b).length) m) []
    rowOnSpare := rows.foldl (fun m x => SMap.put x.1 x.2 m) [] })

/-- Own class of a physical tile (R58). -/
def ownClass (s : State) (h : Nat) : Nat := rf s (.tile h) rTileMxCap 31 24

/-- The map of one row (R60, R368), and the class that its tiles present. -/
def buildRow (r : Nat) (s : State) : State :=
  let bad := (List.range 17).filter fun c => ownClass s (r * 17 + c) == 0
  let mask := bad.foldl (fun n c => n + 2 ^ c) 0
  let cls := if (List.range 17).any fun c => ownClass s (r * 17 + c) == 120 then 120 else 128
  let w := match bad with
    | [] => cls * 2 ^ 56 + 0x1F * 2 ^ 8 + 1
    | [h] => cls * 2 ^ 56 + mask * 2 ^ 39 + h * 2 ^ 8
    | _ => mask * 2 ^ 39 + 2 ^ 32 + 0x1F * 2 ^ 8
  let s := rset s .bup (rBupRowmapr r) (BitVec.ofNat 64 w)
  (List.range 17).foldl (fun s c => rput s (.tile (r * 17 + c)) rTileMxCap 39 32 (if bad.length ≤ 1 then cls else 0)) s

/-- Step 9: self-test and the map (R366 to R369); tiles that a verified record retires are not tested (R361). -/
def endStep9 (r : BupFindings) (s : State) : StepEnd × State :=
  let kept := match s.bup.record with | some x => x.tiles | none => []
  let s := { s with bup := { s.bup with retiredInService := kept } }
  let s := (List.range 544).foldl (fun s h =>
    if kept.contains h then s else testTile h (r.tiles.find? fun f => f.tile == h) s) s
  let s := (List.range 32).foldl (fun s x => buildRow x s) s
  (stepOk, (List.range 544).foldl (fun s h => renewTileId h s) s)

/-- Whether a link's training is over: UP, FAULT or DOWN. -/
def linkSettled (s : State) (l : Nat) : Bool :=
  let st := linkState s l
  linkIsUp s l || st == linkFAULT || st == linkDOWN

/-- Links enabled and not UP. -/
def linksMissing (s : State) : Bool := (List.range 48).any fun l => (rg s .fab (rFabLinkctrll l)).bit 0 && !linkIsUp s l

/-- Whether the running step may end now, `ms` after its start (Table BUP-1). -/
def stepMayEnd (s : State) (ms : Nat) : Bool :=
  match bupStep s with
  | 1 => railsUp s
  | 2 => decide (100 ≤ ms) || ((s.portOf false).up && (s.portOf true).up)
  | 10 => decide (117 ≤ ms) || (List.range 48).all fun l => !(rg s .fab (rFabLinkctrll l)).bit 0 || linkSettled s l
  | 11 => timeState s == timeLOCKED || timeRole s == 0
  | _ => true

/-- What the end of the running step finds. -/
def endOf (r : BupFindings) (s : State) : StepEnd × State :=
  match bupStep s with
  | 3 => endStep3 s
  | 4 => endStep4 s
  | 5 => endStep5 r s
  | 6 => endStep6 r s
  | 7 => endStep7 s
  | 8 => endStep8 r s
  | 9 => endStep9 r s
  | 10 => (⟨true, if linksMissing s then .linkFault else 0⟩, s)
  | _ => (stepOk, s)

/-- BUP_STEP_DONE (R355 to R370): the running step ends after `ms`; steps 2 and 3 follow by themselves. -/
def execBupStepDone (ms : Nat) (r : BupFindings) (s : State) : Host.Outcome State Fault Refusal :=
  if bupStatus s ≠ 1 ∨ stepMayEnd s ms = false then .next s
  else
    let n := bupStep s
    let (e, s) := endOf r (s.upTo (s.bup.stepFrom + ms * cycPerMs))
    let s := if e.code = 0 then s else logEvent srcBup e.code 0 s
    let s := raisePF0 8 (setBup e.code n (if e.done then 2 else 3) false ms s)
    .next (if e.done && decide (n < 3) then beginStep (n + 1) s else s)

/-! The firmware window and the training record. -/

/-- Whether the firmware window is open (R359). -/
def fwWindowOpen (s : State) : Bool :=
  (bupStep s == 3 && bupStatus s == 2) || (bupStep s == 4 && bupStatus s == 3)

/-- The byte of image RAM behind offset `o` of the window. -/
def fwWindowAt (s : State) (o : Nat) : Nat := rf s .bup rBupFwpage 3 0 * 0x80000 + o

/-- A write through the firmware window (R359); one to the closed window during a fence is rejected with WRONG_STATE, for R474
gives no order between the two (the model's choice, log entry 90). -/
def wrFwWindow (a : Acc) (o : Nat) (v : Word) (s : State) : State :=
  if !admits s a .steward then rejectWrite a .bup .notOwner s
  else if fencing s then rejectWrite a .bup .wrongState s
  else if !fwWindowOpen s then rejectWrite a .bup .locked s
  else
    let bs := match a.half with
      | .full => bytesOf 8 v.toNat
      | .low => bytesOf 4 v.toNat
      | .high => bytesOf 4 (v.field 63 32)
    let at_ := fwWindowAt s (if a.half = .high then o + 4 else o)
    { s with bup := { s.bup with imageRam := s.bup.imageRam.writeBytes at_ bs } }

/-- A write of BUP_FWPAGE. -/
def wrBupFwpage (a : Acc) (v : Word) (s : State) : State := hostWrite a .bup rBupFwpage dBupFwpage .steward v noCheck noAct s
/-- A write of BUP_ERRCODE. -/
def wrBupErrcode (a : Acc) (v : Word) (s : State) : State :=
  hostWrite a .bup rBupErrcode dBupErrcode .steward v noCheck (clearErr .bup rBupErrcode) s

/-- The stack banks retired so far. -/
def retiredBanks (s : State) : List (Nat × Nat × Nat) :=
  (List.range 8).flatMap fun k => (s.stack k).retired.map fun x => (k, x.1, x.2)

/-- A new training record in the steward host's memory (R362, Table BUP-2); nothing goes out while the link is down. -/
def saveNow (s : State) : State :=
  let port := stewardPort s
  if portUp s port = false then s
  else
    let (n, s) := s.draw
    let sec := (Config.recordSections n).take (recordMax - 112)
    let size := 112 + sec.length
    let head := bytesOf 4 0x43455254 ++ bytesOf 2 1 ++ bytesOf 2 0 ++ bytesOf 8 Config.serial.toNat ++ bytesOf 4 fid0 ++
      bytesOf 4 size ++ bytesOf 8 s.nowNs ++ List.replicate 32 0
    let body := head ++ sec
    let s := postHost port (rf s .bup rBupTrrec 45 12 * 4096) (body ++ bytesOf 48 (Config.recordMac body).toNat) s
    let s := { s with bup := { s.bup with records := ⟨sec, s.bup.retiredInService, retiredBanks s⟩ :: s.bup.records } }
    rset s .bup rBupTrrecstat (BitVec.ofNat 64 (3 * 2 ^ 42 + size))

/-- A write of BUP_TRREC: SAVE (R362). -/
def wrBupTrrec (a : Acc) (v : Word) (s : State) : State :=
  hostWrite a .bup rBupTrrec dBupTrrec .steward v
    (fun x s => firstOf [(x.v.bit 0 && !bupPast s 6, .wrongState)])
    (fun x s => if x.v.bit 0 then saveNow s else s) s

/-- SAVE (R362). -/
def execSaveRecord (a : Acc) (v : Word) (s : State) : Host.Outcome State Fault Refusal := .next (wrBupTrrec a (v ||| 1) s)

end Sys2Proof.Machine
end

