-- ==== Sys2Proof/Machine/Cairn.lean ====
section
/-! DEFINITION. The cairn meter, its reader port, and the mirror of its records in the saddle (R446 to R453). -/
namespace Sys2Proof.Machine

/-! Cairn time and the event log. -/

/-- Milliseconds between records (R447). -/
def recordMs : Nat := 60000

/-- Cairn time moves on to a moment before the next record: how far is free (log entry 2). -/
def passCairn (s : State) : State :=
  let (n, s) := s.draw
  let c := s.cairn
  { s with cairn := { c with ctime := c.ctime + n % (c.lastRecord + recordMs - c.ctime) } }

/-- An entry of the metrological event log (R453), over the oldest where the log is full. -/
def cairnEvent (kind : Nat) (data : BitVec 128) (c : Cairn) : Cairn :=
  let e := bytesOf 4 c.eventCount ++ bytesOf 8 c.ctime ++ bytesOf 2 kind ++ bytesOf 2 0 ++ bytesOf 16 data.toNat
  { c with events := SMap.put (c.eventCount % 128) e c.events, eventCount := c.eventCount + 1, newEvents := true }

/-- An event whose 16 bytes of data the spec does not state: they are free (log entry 2). -/
def logCairn (kind : Nat) (s : State) : State :=
  let (n, s) := s.draw
  { s with cairn := cairnEvent kind (BitVec.ofNat 128 n) s.cairn }

/-- CAIRN_POWERUP (R447, R448, R453). -/
def execCairnPowerup (romOk calOk : Bool) (s : State) : Host.Outcome State Fault Refusal :=
  if s.cairn.powered then .next s
  else
    let s := logCairn 0x01 { s with cairn := { s.cairn with
      powered := true, first := true, calFault := !calOk, romFault := !romOk } }
    let s := if calOk then s else logCairn 0x06 s
    .next (if romOk then s else logCairn 0x07 s)

/-- CAIRN_POWER_FAIL (R449, R453): the register and CTIME are committed; what the MRAM does not hold is lost. -/
def execCairnPowerFail (s : State) : Host.Outcome State Fault Refusal :=
  if !s.cairn.powered then .next s
  else
    let s := logCairn 0x02 (passCairn s)
    .next { s with cairn := { s.cairn with powered := false, overrange := false, dip := false } }

/-- CAIRN_ROM_CHECK (R448). -/
def execCairnRomCheck (ok : Bool) (s : State) : Host.Outcome State Fault Refusal :=
  if !s.cairn.powered || ok then .next s
  else .next (logCairn 0x07 { s with cairn := { s.cairn with romFault := true } })

/-- CAIRN_DIP_DETECT (R453). -/
def execCairnDipDetect (_ : Fin 9) (data : BitVec 128) (s : State) : Host.Outcome State Fault Refusal :=
  if !s.cairn.powered then .next s
  else
    let s := passCairn s
    .next { s with cairn := { cairnEvent 0x03 data s.cairn with dip := true } }

/-- CURRENT_BEYOND_SENSOR_RANGE (R453, Table SEC-5). -/
def execCurrentBeyondSensorRange (_ : Fin 9) (data : BitVec 128) (s : State) : Host.Outcome State Fault Refusal :=
  if !s.cairn.powered then .next s
  else
    let s := passCairn s
    .next { s with cairn := { cairnEvent 0x04 data s.cairn with overrange := true } }

/-- CAIRN_SENSOR_FAULT (R453). -/
def execCairnSensorFault (data : BitVec 128) (s : State) : Host.Outcome State Fault Refusal :=
  if !s.cairn.powered then .next s
  else
    let s := passCairn s
    .next { s with cairn := cairnEvent 0x05 data s.cairn }

/-! Records. -/

/-- A record before its signature: bytes 0x00 to 0x5F of Table SEC-5, DEVTIME 0. -/
def recordBody (format : Nat) (raile : List Nat) (r : CairnHist) : List Byte :=
  bytesOf 2 format ++ bytesOf 2 r.status ++ bytesOf 4 r.seq ++ bytesOf 8 r.ctime ++ bytesOf 8 0 ++ bytesOf 8 r.cumul ++
    bytesOf 8 r.interval ++ raile.flatMap (bytesOf 4) ++ bytesOf 4 r.intms ++ bytesOf 8 Config.cairnSerial.toNat ++
    bytesOf 8 Config.serial.toNat

/-- Bytes signed by the cairn. -/
def cairnSigned (bs : List Byte) : List Byte := bs ++ bytesOf 96 (Config.cairnSign bs).toNat

/-- STATUS of a record (Table SEC-5). -/
def recordStatus (c : Cairn) (interval : Nat) : Nat :=
  (if c.first then 1 else 0) + (if interval < 200 * recordMs then 2 else 0) + (if c.overrange then 4 else 0) +
    (if c.dip then 8 else 0) + (if c.newEvents then 16 else 0) + (if c.calFault then 32 else 0) +
    (if c.romFault then 64 else 0)

/-- A periodic record: the cairn after it, and its frame's payload. A cairn with a fault bills nothing (R448). -/
def makeRecord (raile : List Nat) (c : Cairn) : List Byte × Cairn :=
  let es := (List.range 9).map fun i => if c.calFault || c.romFault then 0 else (raile.getD i 0) % 2 ^ 32
  let interval := es.foldl (· + ·) 0
  let t := c.lastRecord + recordMs
  let r : CairnHist := ⟨c.seq % 2 ^ 32, recordStatus c interval, t, (c.cumul + interval) % 2 ^ 64, interval, recordMs⟩
  (cairnSigned (recordBody 1 es r),
    { c with ctime := t, lastRecord := t, cumul := r.cumul, seq := (c.seq + 1) % 2 ^ 32, first := false, overrange := false
             dip := false, newEvents := false, history := (r :: c.history).take 256 })

/-- CAIRN_RECORD (R447, R448, R450): the record goes to the reader port; what the saddle receives of it is
CAIRN_FRAME_RECEIVE. -/
def execCairnRecord (x : CairnInterval) (s : State) : Host.Outcome State Fault Refusal :=
  if !s.cairn.powered then .next s
  else
    let s := if x.calOk then s else logCairn 0x06 { s with cairn := { s.cairn with
      calFault := true, ctime := s.cairn.lastRecord + recordMs } }
    let (bs, c) := makeRecord x.raile s.cairn
    .next ({ s with cairn := c }.send (.reader 0x80 bs))

/-! The reader port. -/

/-- An error answer (Table SEC-6). -/
def readerError (n : Nat) (s : State) : State := s.send (.reader 0x8F (bytesOf 1 n))

/-- IDENT (Table SEC-6): the energy since the last record is free (log entry 2); a cairn with a fault adds none. -/
def execIdent (s : State) : Host.Outcome State Fault Refusal :=
  if !s.cairn.powered then .next s
  else
    let (n, s) := s.draw
    let c := s.cairn
    let e := if c.calFault || c.romFault then c.cumul else (c.cumul + n) % 2 ^ 64
    .next (s.send (.reader 0x81 (bytesOf 8 Config.cairnSerial.toNat ++ bytesOf 8 Config.serial.toNat ++
      bytesOf 10 Config.cairnIdent.toNat ++ bytesOf 96 Config.cairnKey.toNat ++ bytesOf 8 e ++ bytesOf 4 c.eventCount)))

/-- RECALL (Table SEC-6). -/
def execRecall (seq : W32) (s : State) : Host.Outcome State Fault Refusal :=
  if !s.cairn.powered then .next s
  else
    match s.cairn.history.find? fun r => r.seq == seq.toNat with
    | some r => .next (s.send (.reader 0x82 (cairnSigned (recordBody 2 (List.replicate 9 0) r))))
    | none => .next (readerError 2 s)

/-- EVENT (Table SEC-6, R453). -/
def execReaderEvent (number : W32) (s : State) : Host.Outcome State Fault Refusal :=
  if !s.cairn.powered then .next s
  else
    let n := number.toNat
    if n < s.cairn.eventCount ∧ s.cairn.eventCount ≤ n + 128 then
      .next (s.send (.reader 0x83 (cairnSigned (SMap.get [] s.cairn.events (n % 128)))))
    else .next (readerError 2 s)

/-- READER_UNKNOWN_TYPE (Table SEC-6): an unknown TYPE, or a LEN that the TYPE does not have. -/
def execReaderUnknownType (type : Byte) (lenWrong : Bool) (s : State) : Host.Outcome State Fault Refusal :=
  if !s.cairn.powered then .next s
  else if !([1, 2, 3].contains type.toNat) then .next (readerError 1 s)
  else if lenWrong then .next (readerError 3 s)
  else .next s

/-! The mirror in the saddle. -/

/-- The 8-byte words of bytes. -/
def wordAt (bs : List Byte) (w : Nat) : Word := BitVec.ofNat 64 (natOfBytes ((bs.drop (8 * w)).take 8))

/-- The record as it arrives, with DEVTIME filled (R450). -/
def withDevtime (bs : List Byte) (t : Nat) : List Byte := bs.take 0x10 ++ bytesOf 8 t ++ bs.drop 0x18

/-- CAIRN_FRAME_RECEIVE (R450, R451). -/
def execCairnFrameReceive (payload : List Byte) (crcOk : Bool) (s : State) : Host.Outcome State Fault Refusal :=
  if !bupPast s 1 || resetting s .device then .next s
  else if !crcOk then .next (rsat s .crn rCrnStat 31 16 1)
  else
    let bs := withDevtime (payload.take 192) s.nowNs
    let sigOk := Config.ecdsaVerify (bytesOf 96 Config.cairnKey.toNat) (withDevtime (bs.take 0x60) 0) (bs.drop 0x60)
    let rcpt := bytesOf 96 (Config.receipt (bytesOf 48 (Config.sha384 bs).toNat)).toNat
    let s := (List.range 24).foldl (fun s w => rset s .crn (rCrnRecw w) (wordAt bs w)) s
    let s := (List.range 12).foldl (fun s w => rset s .crn (rCrnRcptw w) (wordAt rcpt w)) s
    let s := rput s .crn rCrnStat 63 32 (natOfBytes ((bs.drop 4).take 4))
    let s := rput (rput s .crn rCrnStat 1 1 (if sigOk then 1 else 0)) .crn rCrnStat 0 0 1
    let s := if sigOk then
        rput { s with sec := { s.sec with goodRecordAt := s.cyc } } .crn rCrnStat 2 2 0
      else s
    .next (raisePF0 7 s)

/-- CAIRN_SILENT (R451). -/
def execCairnSilent (s : State) : Host.Outcome State Fault Refusal :=
  if (rg s .crn rCrnStat).bit 2 || !bupPast s 1 || resetting s .device then .next s
  else
    let s := rput (s.upTo (s.sec.goodRecordAt + 120 * cycPerS)) .crn rCrnStat 2 2 1
    .next (raisePF0 6 (logEvent srcCairn .cairnSilent 0 s))

end Sys2Proof.Machine
end

