-- ==== Sys2Proof/Machine/TraverseFmt.lean ====
section
/-! DEFINITION. The format of a traverse and of the program images in it, and the checks of a LOAD (R105 to R112,
R183). -/
namespace Sys2Proof.Machine

/-- A check that fails: its condition, code, and offset of the field. -/
abbrev FieldCheck := Bool × Code × Nat
/-- No offset applies to a failure (PART_TRVSTAT FAILOFF). -/
def noOffset : Nat := 0xFFFFFFFF

/-- The first check whose condition for failure holds. -/
def firstBad : List FieldCheck → Option (Code × Nat)
  | [] => none
  | (b, c, o) :: r => if b then some (c, o) else firstBad r

/-- A first finding, else a second. -/
def orBad (a : Option (Code × Nat)) (b : Unit → Option (Code × Nat)) : Option (Code × Nat) :=
  match a with
  | some x => some x
  | none => b ()

/-- The first finding over a list. -/
def firstOver {α : Type} (f : α → Option (Code × Nat)) : List α → Option (Code × Nat)
  | [] => none
  | x :: xs => orBad (f x) fun _ => firstOver f xs

/-- The little-endian number of `len` bytes at `off`. -/
def le (bs : List Byte) (off len : Nat) : Nat := natOfBytes ((bs.drop off).take len)

/-- One step of CRC-32C for one bit. -/
def crcBit (c : Nat) : Nat := if c % 2 = 1 then c / 2 ^^^ 0x82F63B78 else c / 2
/-- One byte. -/
def crcByte (c : Nat) (b : Byte) : Nat :=
  (crcBit ∘ crcBit ∘ crcBit ∘ crcBit ∘ crcBit ∘ crcBit ∘ crcBit ∘ crcBit) (c ^^^ b.toNat)
/-- CRC-32C. -/
def crc32c (bs : List Byte) : Nat := bs.foldl crcByte 0xFFFFFFFF ^^^ 0xFFFFFFFF
/-- Bytes with the 4 at `off` taken as zero. -/
def zeroed (bs : List Byte) (off : Nat) : List Byte := bs.take off ++ [0, 0, 0, 0] ++ bs.drop (off + 4)

/-! Images (R105, R106). -/

/-- Where a program image's parts lie in its store: end of code, start of data, start and end of the zeroed range. -/
structure Layout where
  load : Nat
  code : Nat
  data : Nat
  dataSize : Nat
  bss : Nat
  fin : Nat
  deriving DecidableEq, Repr

/-- The layout that an image's header gives. -/
def layoutOf (im : List Byte) : Layout :=
  let load := le im 0x14 4
  let code := le im 0x08 4
  let dsz := le im 0x0C 4
  let data := roundUp (load + code) 64
  let bss := roundUp (data + dsz) 64
  ⟨load, code, data, dsz, bss, bss + le im 0x10 4⟩

/-- The checks of one image at traverse offset `o`, `size` bytes by its table entry. -/
def imageBad (im : List Byte) (o size : Nat) : Option (Code × Nat) :=
  let tgt := le im 6 2
  let bad (b : Bool) (off : Nat) : FieldCheck := (b, .imageInvalid, o + off)
  firstBad [
    bad (decide (size < 0x20)) 0, bad (le im 0 4 != 0x49524C41) 0, bad (le im 4 2 != 1) 4, bad (tgt != 1 && tgt != 2) 6,
    bad (le im 8 4 % 4 != 0 || le im 8 4 == 0) 8, bad (le im 0xC 4 % 4 != 0) 0xC, bad (le im 0x10 4 % 4 != 0) 0x10,
    bad (le im 0x14 4 % 64 != 0) 0x14,
    bad (if tgt = 2 then le im 0x18 4 % 4 != 0 || decide (le im 8 4 ≤ le im 0x18 4) else le im 0x18 4 != 0) 0x18,
    bad (size != 0x20 + le im 8 4 + le im 0xC 4) 8,
    bad (decide ((if tgt = 2 then 0x10000 else storeBytes) < (layoutOf im).fin)) 0x14,
    bad (crc32c (zeroed im 0x1C) != le im 0x1C 4) 0x1C]

/-- The bytes of image-table entry `i` (Table SPR-7). -/
def imgEntry (bs : List Byte) (i : Nat) : List Byte := (bs.drop (le bs 0x20 8 + 32 * i)).take 32

/-- An image-table entry with its image. -/
def imageOf (bs : List Byte) (i : Nat) : ImageRec :=
  let e := imgEntry bs i
  { off := le e 0 8, grotto := le e 0xC 1 == 2, gstack := le e 0xD 1, first := le e 0x10 2, count := le e 0x12 2
    bytes := (bs.drop (le e 0 8)).take (le e 8 4) }

/-- The checks of an image-table entry and its image. -/
def imgEntryBad (bs : List Byte) (i : Nat) : Option (Code × Nat) :=
  let e := imgEntry bs i
  let o := le bs 0x20 8 + 32 * i
  let bad (b : Bool) (off : Nat) : FieldCheck := (b, .traverseInvalid, o + off)
  let off := le e 0 8
  let size := le e 8 4
  orBad (firstBad [bad (off % 64 != 0 || decide (le bs 0x30 8 < off + size)) 0,
      bad (le e 0xC 1 != 1 && le e 0xC 1 != 2) 0xC,
      bad (if le e 0xC 1 = 2 then decide (3 < le e 0xD 1) else le e 0xD 1 != 0) 0xD, bad (le e 0xE 2 != 0) 0xE,
      bad (le e 0x12 2 == 0) 0x12, bad (le e 0x14 12 != 0) 0x14,
      bad (decide ((if le e 0xC 1 = 2 then 128 else 512) < le e 0x10 2 + le e 0x12 2)) 0x10]) fun _ =>
    orBad (imageBad (imageOf bs i).bytes off size) fun _ =>
      firstBad [bad (le (imageOf bs i).bytes 6 2 != le e 0xC 1) 0xC]

/-! The traverse (R107 to R110, R183). -/

/-- Logical tiles of a cluster mask. -/
def maskTile (mask t : Nat) : Bool := decide (t < 512) && mask.testBit (t / 16)

/-- The checks of the header (Table SPR-6). -/
def headerBad (bs : List Byte) : Option (Code × Nat) :=
  let bad (b : Bool) (off : Nat) : FieldCheck := (b, .traverseInvalid, off)
  let total := le bs 0x30 8
  firstBad [
    bad (le bs 0 4 != 0x56525441) 0, bad (le bs 4 2 != 1) 4, bad (decide (1 < le bs 6 2)) 6,
    bad (!([128, 120].contains (le bs 0xC 1))) 0xC, bad (!([1, 2, 4].contains (le bs 0xD 1))) 0xD,
    bad (bitsOf (le bs 0xE 2) 15 12 != 0 || !maskTile (le bs 8 4) (bitsOf (le bs 0xE 2) 11 3)) 0xE,
    bad (le bs 0x14 4 == 0 || decide (1048576 < le bs 0x14 4)) 0x14,
    bad (decide (le bs 0x14 4 ≤ le bs 0x18 4) || (le bs 6 2 == 0 && le bs 0x18 4 != 0)) 0x18,
    bad (le bs 0x1C 4 == 0 || decide (4096 < le bs 0x1C 4)) 0x1C,
    bad (decide (total < le bs 0x20 8 + 32 * le bs 0x1C 4)) 0x20,
    bad (decide (total < le bs 0x28 8 + 64 * le bs 0x14 4)) 0x28, bad (decide (total < 0x40)) 0x30,
    bad (le bs 0x3C 4 != 0) 0x3C]

/-- The spur image of a logical tile. -/
def spurImage (ims : List ImageRec) (t : Nat) : Option ImageRec :=
  ims.find? fun i => !i.grotto && decide (i.first ≤ t ∧ t < i.first + i.count)
/-- Cores or tiles that an image names: logical tiles, or 512 + AGENT. -/
def imageUnits (i : ImageRec) : List Nat :=
  (List.range i.count).map fun j => if i.grotto then 512 + i.gstack * 128 + i.first + j else i.first + j

/-- R108: no unit named twice, no tile outside the clusters, none of theirs missing. -/
def coverageBad (bs : List Byte) (ims : List ImageRec) : Option (Code × Nat) :=
  let mask := le bs 8 4
  let at_ (j : Nat) : Nat := le bs 0x20 8 + 32 * j + 0x10
  orBad (firstOver (fun (x : ImageRec × Nat) =>
      let us := imageUnits x.1
      let before := (ims.take x.2).flatMap imageUnits
      firstBad [(us.any fun u => before.contains u || (decide (u < 512) && !maskTile mask u), .traverseInvalid, at_ x.2)])
    ims.zipIdx) fun _ =>
    if (List.range 512).any fun t => maskTile mask t && (spurImage ims t).isNone then some (.traverseInvalid, noOffset)
    else none

/-- Step record `i`. -/
def stepBytes (bs : List Byte) (i : Nat) : List Byte := (bs.drop (le bs 0x28 8 + 64 * i)).take 64
/-- Record `j` of `len` bytes of the table at `tab`. -/
def recAt (bs : List Byte) (tab len j : Nat) : List Byte := (bs.drop (tab + len * j)).take len

/-- The entry table of a step. -/
def entryOfRec (e : List Byte) : EntryRec :=
  { first := le e 0 2, count := le e 2 2, offs := (List.range 8).map fun n => le e (8 + 4 * n) 4 }
/-- A pin-list entry. -/
def pinOfRec (e : List Byte) : PinRec :=
  { va := le e 0 8, first := le e 8 2, count := le e 0xA 2, ntrans := le e 0xC 2, size := le e 0xE 1 }
/-- A counter-plan entry. -/
def cplanOfRec (e : List Byte) : CplanRec :=
  { counter := le e 0 8, value := le e 8 8, agent := le e 0x10 2, isWait := le e 0x12 1 == 1, unit := le e 0x13 1
    deadline := le e 0x14 4 }
/-- A power plan. -/
def pplanOf (bs : List Byte) (o : Nat) : PplanRec :=
  { gactive := (List.range 4).map fun g => le bs (o + 2 + g) 1, pkgw := le bs (o + 8) 4
    clusters := (List.range (le bs o 2)).map fun j => (le bs (o + 0x10 + 4 * j) 1, le bs (o + 0x12 + 4 * j) 2) }

/-- A step record. -/
def stepOf (bs : List Byte) (i : Nat) : StepRec :=
  let r := stepBytes bs i
  let list {α : Type} (f : List Byte → α) (tab len n : Nat) : List α := (List.range n).map fun j => f (recAt bs tab len j)
  { budget := le r 0 4, align := le r 4 2 == 1
    entries := list entryOfRec (le r 8 8) 40 (le r 0x10 4), pins := list pinOfRec (le r 0x18 8) 16 (le r 0x14 4)
    cplan := list cplanOfRec (le r 0x20 8) 24 (le r 0x28 4), pplan := pplanOf bs (le r 0x30 8) }

/-- The checks of a step record's own fields (Table SPR-8), and that its tables lie inside the traverse. -/
def stepBad (bs : List Byte) (i : Nat) : Option (Code × Nat) :=
  let r := stepBytes bs i
  let o := le bs 0x28 8 + 64 * i
  let total := le bs 0x30 8
  let bad (b : Bool) (off : Nat) : FieldCheck := (b, .traverseInvalid, o + off)
  orBad (firstBad [bad (decide (le r 0 4 < 64)) 0, bad (decide (1 < le r 4 2)) 4, bad (le r 6 2 != 0) 6,
    bad (decide (total < le r 8 8 + 40 * le r 0x10 4)) 8, bad (decide (total < le r 0x18 8 + 16 * le r 0x14 4)) 0x18,
    bad (decide (total < le r 0x20 8 + 24 * le r 0x28 4)) 0x20, bad (le r 0x2C 4 != 0) 0x2C,
    bad (decide (total < le r 0x30 8 + 0x10)) 0x30, bad (le r 0x38 8 != 0) 0x38]) fun _ =>
    firstBad [bad (decide (total < le r 0x30 8 + 0x10 + 4 * le bs (le r 0x30 8) 2)) 0x30]

/-- The checks of an entry-table entry (Table SPR-9) at `o`. -/
def entryBad (mask : Nat) (ims : List ImageRec) (e : List Byte) (o : Nat) : Option (Code × Nat) :=
  let x := entryOfRec e
  let tiles := (List.range x.count).map (x.first + ·)
  let bad (b : Bool) (off : Nat) : FieldCheck := (b, .traverseInvalid, o + off)
  orBad (firstBad [bad (tiles.any fun t => !maskTile mask t) 0, bad (x.count == 0) 2, bad (le e 4 4 != 0) 4]) fun _ =>
    firstOver (fun (y : Nat × Nat) =>
      firstBad [bad (y.1 != 0xFFFFFFFF && (y.1 % 4 != 0 || tiles.any fun t =>
        match spurImage ims t with
        | some i => decide ((layoutOf i.bytes).code ≤ y.1)
        | none => true)) (8 + 4 * y.2)]) x.offs.zipIdx

/-- The checks of a pin-list entry (Table SPR-10) at `o`. -/
def pinBad (mask : Nat) (e : List Byte) (o : Nat) : Option (Code × Nat) :=
  let x := pinOfRec e
  let bad (b : Bool) (off : Nat) : FieldCheck := (b, .traverseInvalid, o + off)
  firstBad [bad (x.va % 65536 != 0 || decide (2 ^ 52 ≤ x.va)) 0,
    bad ((List.range x.count).any fun j => !maskTile mask (x.first + j)) 8,
    bad (x.ntrans == 0 || decide (64 < x.ntrans)) 0xC, bad (decide (1 < x.size)) 0xE, bad (le e 0xF 1 != 0) 0xF]

/-- The checks of a counter-plan entry (Table SPR-11, R183) at `o`. -/
def cplanBad (mask budget : Nat) (e : List Byte) (o : Nat) : Option (Code × Nat) :=
  let x := cplanOfRec e
  let bad (b : Bool) (off : Nat) : FieldCheck := (b, .traverseInvalid, o + off)
  firstBad [bad (decide (2 ^ 34 ≤ x.counter)) 0,
    bad (if x.unit = 0xB then decide (512 ≤ x.agent) else !maskTile mask x.agent) 0x10,
    bad (le e 0x12 1 != 1 && le e 0x12 1 != 2) 0x12, bad (decide (0xB < x.unit)) 0x13,
    bad (decide (budget < x.deadline)) 0x14]

/-- The checks of a power plan (Table SPR-12, R412) at `o`, in a traverse built for the clusters of `mask`. -/
def pplanBad (mask : Nat) (bs : List Byte) (o : Nat) : Option (Code × Nat) :=
  let p := pplanOf bs o
  let bad (b : Bool) (off : Nat) : FieldCheck := (b, .traverseInvalid, o + off)
  orBad (firstOver (fun (g : Nat × Nat) => firstBad [bad (decide (64 < g.1)) (2 + g.2)]) p.gactive.zipIdx) fun _ =>
  orBad (firstBad [bad (le bs (o + 6) 2 != 0) 6,
    bad (decide (2800 < p.pkgw)) 8, bad (le bs (o + 0xC) 4 != 0) 0xC]) fun _ =>
    firstOver (fun j => firstBad [bad (!mask.testBit (le bs (o + 0x10 + 4 * j) 1)) (0x10 + 4 * j),
      bad (le bs (o + 0x11 + 4 * j) 1 != 0) (0x11 + 4 * j)]) (List.range (le bs o 2))

/-- Limits of one step over its tiles and cores (R110, R183), in its pin list at `pinTab` and its counter plan at `cTab`:
the entry with which a tile or core passes its limit. -/
def limitsBad (x : StepRec) (pinTab cTab : Nat) : Option (Code × Nat) :=
  let bad (b : Bool) (off : Nat) : FieldCheck := (b, .traverseInvalid, off)
  let pins (l : List PinRec) (t : Nat) : Nat :=
    (l.filter fun p => decide (p.first ≤ t ∧ t < p.first + p.count)).foldl (fun m p => m + p.ntrans) 0
  let plan (l : List CplanRec) (c : CplanRec) : Nat := l.countP fun d => d.agent == c.agent && (d.unit == 0xB) == (c.unit == 0xB)
  orBad (firstOver (fun (e : PinRec × Nat) =>
      firstBad [bad ((List.range 512).any fun t => decide (64 < pins (x.pins.take (e.2 + 1)) t)) (pinTab + 16 * e.2 + 0xC)])
    x.pins.zipIdx) fun _ =>
    firstOver (fun (e : CplanRec × Nat) =>
      firstBad [bad (decide ((if e.1.unit = 0xB then 8 else 32) < plan (x.cplan.take (e.2 + 1)) e.1)) (cTab + 24 * e.2 + 0x10)])
    x.cplan.zipIdx

/-- The checks of a step with its tables. -/
def stepAllBad (bs : List Byte) (ims : List ImageRec) (i : Nat) : Option (Code × Nat) :=
  let mask := le bs 8 4
  let r := stepBytes bs i
  let excess (f : List Byte → Nat → Option (Code × Nat)) (tab len n : Nat) : Option (Code × Nat) :=
    firstOver (fun j => f (recAt bs tab len j) (tab + len * j)) (List.range n)
  orBad (stepBad bs i) fun _ =>
  orBad (excess (entryBad mask ims) (le r 8 8) 40 (le r 0x10 4)) fun _ =>
  orBad (excess (pinBad mask) (le r 0x18 8) 16 (le r 0x14 4)) fun _ =>
  orBad (excess (cplanBad mask (le r 0 4)) (le r 0x20 8) 24 (le r 0x28 4)) fun _ =>
  orBad (pplanBad mask bs (le r 0x30 8)) fun _ => limitsBad (stepOf bs i) (le r 0x18 8) (le r 0x20 8)

/-- The images of a traverse. -/
def imagesOf (bs : List Byte) : List ImageRec := (List.range (le bs 0x1C 4)).map (imageOf bs)

/-- Whether the bytes are an invalid traverse (R112), and where. -/
def traverseBad (bs : List Byte) : Option (Code × Nat) :=
  orBad (headerBad bs) fun _ =>
  orBad (firstBad [(crc32c (zeroed bs 0x38) != le bs 0x38 4, .traverseInvalid, 0x38)]) fun _ =>
  orBad (firstOver (imgEntryBad bs) (List.range (le bs 0x1C 4))) fun _ =>
  orBad (coverageBad bs (imagesOf bs)) fun _ =>
    firstOver (stepAllBad bs (imagesOf bs)) (List.range (le bs 0x14 4))

/-- The traverse that valid bytes spell. -/
def traverseOf (bs : List Byte) : Traverse :=
  { loop := le bs 6 2 == 1, clusterMask := le bs 8 4, width := le bs 0xC 1, refmode := le bs 0xD 1
    dispatch := le bs 0xE 2, lenBucket := le bs 0x10 4, loopStep := le bs 0x18 4, images := imagesOf bs
    steps := (List.range (le bs 0x14 4)).map (stepOf bs) }

/-- Whether a counter identifier of the plan names a counter of this device outside partition `p` (R112). -/
def foreignCounter (s : State) (p : Nat) (c : CplanRec) : Bool :=
  if c.counter / 2 ^ 20 ≠ devId s then false
  else
    let b := bitsOf c.counter 19 8
    let x : Cnt := if b = 0xFFF then
        (if c.unit = 0xB then grottoCnt c.agent (c.counter % 256) else ⟨c.agent, c.counter % 256⟩)
      else ⟨b, c.counter % 256⟩
    match holderOf s x with
    | some h => holderPart s h != some p
    | none => true

/-- Where a valid traverse does not fit partition `p` (R112): its clusters, its width, a counter of the plan, a grotto
image, looked at in this order. -/
def unfitBad (s : State) (p : Nat) (bs : List Byte) : Option (Code × Nat) :=
  let t := traverseOf bs
  let bad (b : Bool) (off : Nat) : FieldCheck := (b, .traverseUnfit, off)
  orBad (firstBad [bad (t.clusterMask != (rgEff s (.part p) rPartComp).field 31 0) 8,
    bad (t.width == 128 && (List.range 32).any fun r => partHasCluster s p r && clusterClass s r == 120) 0xC]) fun _ =>
  orBad (firstOver (fun (x : StepRec × Nat) =>
      firstOver (fun (c : CplanRec × Nat) => firstBad [bad (foreignCounter s p c.1) (le (stepBytes bs x.2) 0x20 8 + 24 * c.2)])
        x.1.cplan.zipIdx) t.steps.zipIdx) fun _ =>
    firstOver (fun (i : ImageRec × Nat) =>
      firstBad [bad (i.1.grotto && (imageUnits i.1).any fun u => partOfGrotto s (u - 512) != some p)
        (le bs 0x20 8 + 32 * i.2 + 0x10)]) t.images.zipIdx

end Sys2Proof.Machine
end

