-- ==== Sys2Proof/Machine/Schedule.lean ====
section
/-! DEFINITION. Loading and running traverses, steps, deadlines and buffer invalidation (R109 to R115, R179 to R187,
R192, R201 to R203, R268, R332, R478). -/
namespace Sys2Proof.Machine

/-! Slice refresh modes (R201 to R204). -/

/-- The lowest mode whose limit is not below a reading in °C. -/
def modeFor (temp : Nat) : Nat := if temp ≤ 85 then 1 else if temp ≤ 95 then 2 else 4
/-- The limit of a mode; the 4× mode has none here. -/
def modeLimit (m : Nat) : Nat := if m = 1 then 85 else if m = 2 then 95 else 256
/-- The governing reading of a cluster (TILE_SL_STATE TEMP). -/
def clusterTemp (s : State) (r : Nat) : Nat := rf s (.tile (r * 17)) rTileSlState 39 32
/-- The clock-division factor. -/
def clockDiv (s : State) : Nat := 2 ^ rf s .clk rClkState 11 10
/-- The slice controllers of a cluster in a mode, with the REFMODE built for and whether the mode is forced; a new mode takes
effect from the first of its slot positions after this cycle (R202). -/
def setMode (r mode built : Nat) (forced : Bool) (s : State) : State :=
  (List.range 17).foldl (init := noteSlots r (mode * clockDiv s) s) fun s j =>
    let b : Blk := .tile (r * 17 + j)
    rput (rput (rput (rput s b rTileSlState 11 8 mode) b rTileSlState 7 4 built) b rTileSlState 1 1 (if forced then 1 else 0))
      b rTileSlState 20 16 (mode * clockDiv s)
/-- The mode forced on a cluster of a running partition (R202); the rounds of R203 count from here. -/
def forceMode (p r mode built : Nat) (s : State) : State :=
  reportBreak p 2 0xF 0xFFFF (srcTile (r * 17))
    (setMode r mode built true { s with therm := { s.therm with refCool := SMap.put r 0 s.therm.refCool } })
/-- The clusters of a partition. -/
def clustersOf (s : State) (p : Nat) : List Nat := (List.range 32).filter fun r => partHasCluster s p r
/-- The modes of a partition's clusters at RUN. -/
def modesAtRun (p ref : Nat) (s : State) : State :=
  (clustersOf s p).foldl (init := s) fun s r =>
    let need := modeFor (clusterTemp s r)
    if ref < need then forceMode p r need ref s else setMode r ref ref false s
/-- REFMODE of the traverse that runs on a cluster; 0 if none runs. -/
def builtMode (s : State) (r : Nat) : Nat :=
  match partOfCluster s r with
  | some p => if partRunning s p then (match (s.part p).trv with | some t => t.refmode | none => 0) else 0
  | none => 0
/-- A cluster's mode at an epoch mark (R201, R203). -/
def modeAtMark (r : Nat) (s : State) : State :=
  let ref := builtMode s r
  if ref = 0 then setMode r (modeFor (clusterTemp s r)) 0 false s
  else if (rg s (.tile (r * 17)) rTileSlState).bit 1 && decide (20 ≤ SMap.get 0 s.therm.refCool r) then
    setMode r ref ref false s
  else s

/-! LOAD. -/

/-- A read of `len` bytes at a virtual address of partition `p` by the device, page by page: the bytes read, and the
code that ended it. -/
def readVa (p : Nat) : Nat → Nat → Nat → State → List Byte × Option Code × State
  | 0, _, _, s => ([], none, s)
  | fuel + 1, va, len, s =>
    if len = 0 then ([], none, s)
    else
      let e := walkEntry s p va
      let n := min len (e.va + e.size - va)
      match xlateDevice p va s with
      | (none, s) => ([], some .outOfRange, s)
      | (some x, s) =>
        match readSpan (some p) p x n s with
        | (.error c, s) => ([], some c, s)
        | (.ok bs, s) =>
          let (rest, c, s) := readVa p fuel (va + n) (len - n) s
          (bs ++ rest, c, s)

/-- The address of the traverse (PART_TRVBASE). -/
def trvBase (s : State) (p : Nat) : Nat := rf s (.part p) rPartTrvbase 51 6 * 64

/-- `len` bytes at a virtual address of partition `p` as the stacks and hosts hold them, zeros where its tables lead
nowhere: what a traverse is, whether or not the device could read it. -/
def bytesAtVa (s : State) (p : Nat) : Nat → Nat → Nat → List Byte
  | 0, _, _ => []
  | fuel + 1, va, len =>
    if len = 0 then []
    else
      let e := walkEntry s p va
      let n := min len (e.va + e.size - va)
      (match e.phys s va with
        | some a => (pieces a n).flatMap fun x => storedBytes s x.1 x.2
        | none => List.replicate n 0) ++ bytesAtVa s p fuel (va + n) (len - n)

/-- The stores that an image goes to, within partition `p`: a grotto core that runs takes none (R245). -/
def imageStores (s : State) (p : Nat) (i : ImageRec) : List MemId :=
  (imageUnits i).filterMap fun u =>
    if i.grotto then
      (if partOfGrotto s (u - 512) = some p ∧ (s.grotto (u - 512)).active = false then some (.ls (u - 512)) else none)
    else if partOfTile s u = some p then (physOf s u).map .store else none

/-- `len` bytes at `a` become free values (R113). -/
def scramble (i : MemId) (a len : Nat) (s : State) : State :=
  let (n, s) := s.draw
  memWrite none i a (bytesOf len n) s

/-- Image `j` of the traverse at `base`, as its image-table entry and the header there say, its bytes past the header left
out. -/
def rawImage (s : State) (p base j : Nat) : ImageRec :=
  let tab := base + le (bytesAtVa s p 2 (base + 0x20) 8) 0 8
  let e := bytesAtVa s p 2 (tab + 32 * j) 32
  { off := le e 0 8, grotto := le e 0xC 1 == 2, gstack := le e 0xD 1, first := le e 0x10 2, count := le e 0x12 2
    bytes := bytesAtVa s p 2 (base + le e 0 8) 32 }

/-- A failed load leaves the stores inside its image ranges undefined (R113): the ranges that the traverse's bytes name,
inside the stores of the partition, whichever check has failed. -/
def scrambleImages (p base : Nat) (s : State) : State :=
  (List.range (min 4096 (le (bytesAtVa s p 2 (base + 0x1C) 4) 0 4))).foldl (init := s) fun t j =>
    let i := rawImage s p base j
    let l := layoutOf i.bytes
    let lim := if i.grotto then 0x10000 else storeBytes
    (imageStores s p i).foldl (fun t m => scramble m (min l.load lim) (min l.fin lim - min l.load lim) t) t

/-- An image copied to one store, its BSS range zeroed (R106). -/
def placeImage (i : ImageRec) (m : MemId) (s : State) : State :=
  let l := layoutOf i.bytes
  let s := memWrite none m l.load ((i.bytes.drop 0x20).take l.code) s
  let s := memWrite none m l.data ((i.bytes.drop (0x20 + l.code)).take l.dataSize) s
  let s := memWrite none m l.bss (List.replicate (l.fin - l.bss) 0) s
  let img : Img := ⟨l.load, l.code, le i.bytes 0x18 4⟩
  match m with
  | .store h => s.updTile h fun y => { y with img := some img }
  | .ls k => s.setGrotto k { s.grotto k with img := some img, g := [], w := [] }
  | _ => s

/-- STATE, CODE and FAILOFF of PART_TRVSTAT. -/
def setTrv (p st : Nat) (code : Code) (off : Nat) (s : State) : State :=
  rset s (.part p) rPartTrvstat (BitVec.ofNat 64 (code.toNat * 2 ^ 48 + st * 2 ^ 32 + off))
/-- STATE alone. -/
def setTrvState (p st : Nat) (s : State) : State := rput s (.part p) rPartTrvstat 34 32 st

/-- The load fails. -/
def failLoad (p : Nat) (code : Code) (off : Nat) (s : State) : State :=
  raiseEvent p (setTrv p trvFAILED code off (scrambleImages p (trvBase s p) s))

/-- Whether an image would go to a grotto core that runs (R247). -/
def coreBusy (s : State) (t : Traverse) : Bool :=
  t.images.any fun i => i.grotto && (imageUnits i).any fun u => (s.grotto (u - 512)).active

/-- Matrix commands of a tile run again in a new step (R66). -/
def Tile.unbar (t : Tile) : Tile := { t with matrixBarred := false }

/-- The load succeeds: no step of the traverse has started (R478), and none has a break yet (R194). -/
def endLoad (p : Nat) (t : Traverse) (s : State) : State :=
  let s := t.images.foldl (fun s i => (imageStores s p i).foldl (fun s m => placeImage i m s) s) s
  let s := { s with tiles := s.tiles.map fun (e : Nat × Tile) =>
    (e.1, if partHasCluster s p (clusterOfPhys e.1) then e.2.unbar else e.2) }
  let s := s.updPart p fun x =>
    { x with trv := some t, started := false, budgetEnd := false, runAt := none, issued := [], checked := [], broken := []
             withheld := [], heldMarks := [], slotLate := [] }
  raiseEvent p (setTrv p trvLOADED 0 noOffset (rput s (.part p) rPartTrvstep 31 0 0))

/-- Whether storage of the partition is still being filled (R225). -/
def fillsPending (s : State) (p : Nat) : Bool :=
  s.bup.fills.any fun f =>
    match f with
    | .cluster c => partHasCluster s p c.val
    | .range k r => (rgEff s (.memc k) (rMemcRanger r)).field 52 48 == p

/-- LOAD_DONE (R112, R113): the traverse is read, checked and placed; the header's bytes are the first of those read. -/
def execLoadDone (p : Fin 32) (s : State) : Host.Outcome State Fault Refusal :=
  if trvState s p ≠ trvLOADING ∨ fillsPending s p then .next s
  else
    let base := trvBase s p
    match readVa p 64 base 64 s with
    | (_, some c, s) => .next (failLoad p c noOffset s)
    | (hd, none, hs) =>
      match headerBad hd with
      | some (c, o) => .next (failLoad p c o hs)
      | none =>
        let total := le hd 0x30 8
        match readVa p (total / 65536 + 2) base total s with
        | (_, some c, s) => .next (failLoad p c noOffset s)
        | (bs, none, s) =>
          match traverseBad bs with
          | some (c, o) => .next (failLoad p c o s)
          | none =>
            match unfitBad s p bs with
            | some (c, o) => .next (failLoad p c o s)
            | none =>
              let t := traverseOf bs
              if coreBusy s t then .next (failLoad p .wrongState noOffset s)
              else .next (endLoad p t s)

/-! Commands. -/

/-- A stack in WINDOW mode for which the traverse carries an image (R249). -/
def windowImage (s : State) (p : Nat) : Bool :=
  match (s.part p).trv with
  | some t => t.images.any fun i => i.grotto && (rg s (.grt i.gstack) rGrtMode).bit 0
  | none => false

/-- The images of a partition's units are gone (R332, R247). -/
def dropImages (p : Nat) (s : State) : State :=
  let s := { s with tiles := s.tiles.map fun (e : Nat × Tile) =>
    (e.1, if partHasCluster s p (clusterOfPhys e.1) then { e.2 with img := none } else e.2) }
  { s with grt := s.grt.map fun (e : Nat × Grotto) => (e.1, if partOfGrotto s e.1 = some p then { e.2 with img := none } else e.2) }

/-- The cycle of the next epoch mark (R188). -/
def nextMark (s : State) : Nat := s.markCyc + ((s.cyc - s.markCyc) / 8192 + 1) * 8192

/-- The traverse becomes RUNNING; step 0 starts at the epoch mark of cycle `c`. -/
def beginRun (p c : Nat) (s : State) : State :=
  let s := setTrvState p trvRUNNING (s.updPart p fun x => { x with runAt := some c })
  match (s.part p).trv with
  | some t => modesAtRun p t.refmode s
  | none => s

/-- A held RUN is cancelled (R192): by EN = 0, and where the traverse that it would run is replaced (log entry 38). -/
def cancelRun (p : Nat) (s : State) : State := rput s (.part p) rPartRunepoch 62 62 0

/-- What a write of PART_TRVCTRL commands (R115, R192, R332). -/
def trvCommand (p : Nat) (v : Word) (s : State) : State :=
  if v.bit 0 then setTrv p trvLOADING 0 noOffset (cancelRun p s)
  else if v.bit 1 then
    if (rg s (.part p) rPartRunepoch).bit 63 then rput s (.part p) rPartRunepoch 62 62 1 else beginRun p (nextMark s) s
  else if v.bit 2 then setTrvState p trvSTOPPING (s.updPart p fun x => { x with runAt := none })
  else if v.bit 3 then
    let s := dropImages p (closeAllWrong p (cancelRun p s))
    setTrvState p trvEMPTY (s.updPart p fun x => { x with trv := none })
  else s

/-- A write of PART_TRVCTRL. -/
def wrPartTrvctrl (a : Acc) (p : Nat) (v : Word) (s : State) : State :=
  hostWrite a (.part p) rPartTrvctrl dPartTrvctrl (.ownerVf p) v
    (fun x s =>
      let st := trvState s p
      let w := rg s (.part p) rPartRunepoch
      firstOf [(decide (1 < x.v.field 3 0 % 2 + x.v.field 3 1 % 2 + x.v.field 3 2 % 2 + x.v.field 3 3), .illegalValue),
        (x.v.bit 0 && !(st == trvEMPTY || st == trvLOADED || st == trvFAILED), .wrongState),
        (x.v.bit 1 && (st != trvLOADED || windowImage s p ||
          (w.bit 63 && decide (w.field 61 0 < epochNum s + 2))), .wrongState),
        (x.v.bit 2 && st != trvRUNNING, .wrongState),
        (x.v.bit 3 && !(st == trvLOADED || st == trvFAILED), .wrongState)])
    (fun x s => trvCommand p x.v s) s

/-- LOAD (R113). -/
def execLoadTrv (a : Acc) (p : Fin 32) (v : Word) (s : State) : Host.Outcome State Fault Refusal :=
  .next (wrPartTrvctrl a p (v ||| 1) s)
/-- RUN (R115, R192). -/
def execRunTrv (a : Acc) (p : Fin 32) (v : Word) (s : State) : Host.Outcome State Fault Refusal :=
  .next (wrPartTrvctrl a p (v ||| 2) s)
/-- STOP (R115). -/
def execStopTrv (a : Acc) (p : Fin 32) (v : Word) (s : State) : Host.Outcome State Fault Refusal :=
  .next (wrPartTrvctrl a p (v ||| 4) s)
/-- UNLOAD (R332). -/
def execUnloadTrv (a : Acc) (p : Fin 32) (v : Word) (s : State) : Host.Outcome State Fault Refusal :=
  .next (wrPartTrvctrl a p (v ||| 8) s)

/-- A write of PART_TRVBASE. -/
def wrPartTrvbase (a : Acc) (p : Nat) (v : Word) (s : State) : State :=
  hostWrite a (.part p) rPartTrvbase dPartTrvbase (.ownerVf p) v
    (fun _ s => firstOf [([trvLOADING, trvRUNNING, trvSTOPPING].contains (trvState s p), .wrongState)]) noAct s

/-- A write of PART_RUNEPOCH (R192). -/
def wrPartRunepoch (a : Acc) (p : Nat) (v : Word) (s : State) : State :=
  hostWrite a (.part p) rPartRunepoch dPartRunepoch (.ownerVf p) v
    (fun x _ => firstOf [(x.new.bit 63 && x.old.bit 62, .wrongState)])
    (fun x s =>
      if x.old.bit 62 && !x.new.bit 63 then cancelRun p s else s) s

/-- PART_RUNEPOCH (R192). -/
def execPartRunEpoch (a : Acc) (p : Fin 32) (v : Word) (s : State) : Host.Outcome State Fault Refusal :=
  .next (wrPartRunepoch a p v s)

/-! Steps. -/

/-- The record of the current step. -/
def stepRec (s : State) (p : Nat) : Option StepRec :=
  match (s.part p).trv with
  | some t => t.steps[curStep s p]?
  | none => none

/-- The cycle on which the step clock reaches `n` in the current step; while it is stopped, never (R180). -/
def stepCycleAt (x : Part) (n : Nat) : Option Nat := if x.stoppedAt.isSome then none else some (x.stepStart + n + x.stopped)

/-- The first epoch mark on or after cycle `c`, which is not after the latest one (R188). -/
def markFrom (s : State) (c : Nat) : Nat := s.markCyc - (s.markCyc - c) / 8192 * 8192

/-- The pins of a tile at a step boundary (R144, R264): those of the next step become those of the running one;
a TPIN whose walks are not done runs on. -/
def turnPins (t : Tile) : Tile :=
  { t with
    tbuf := t.tbuf.filterMap fun e =>
      if e.oa.isNone && !e.pinNext && e.pinNow then none
      else some { e with pinNow := e.pinNext, pinNext := false }
    tpinLate := match t.tpin with
      | some x => if x.done then t.tpinLate else t.tpinLate ++ x.counters
      | none => t.tpinLate
    tpin := none }

/-- The pins of a partition's tiles at a step boundary. -/
def turnAllPins (p : Nat) (s : State) : State :=
  { s with
    tiles := s.tiles.map fun e => (e.1, if partHasCluster s p (clusterOfPhys e.1) then (turnPins e.2).unbar else e.2)
    walks := s.walks.map fun w =>
      match w.why with
      | .tpin t _ => if w.part = p then { w with why := .tpin t false } else w
      | _ => w }

/-- The contexts of one tile start as the step's entry names them (R109, R181). -/
def startTile (p t : Nat) (offs : List Nat) (s : State) : State :=
  match physOf s t with
  | none => s
  | some h =>
    offs.zipIdx.foldl (init := s) fun s (off, n) =>
      if off = 0xFFFFFFFF then s
      else
        let c := (s.tile h).ctxOf n
        if c.st = .idle then
          match (s.tile h).img with
          | some i => s.updTile h fun y => y.setCtx n { c with st := .ready, pc := i.loadOff + off }
          | none => s
        else reportBreak p 5 n t (srcTile h) s

/-- Step `i` of partition `p` starts on cycle `c`; where a pause has stopped the step clock it counts from its restart on
(R180, R185). Divided clocks are a THROTTLE break of it (R415). -/
def startStep (p i c : Nat) (s : State) : State :=
  let s := turnAllPins p (s.upTo c)
  let s := s.updPart p fun x =>
    { x with started := true, stepStart := c, stopped := 0, stoppedAt := x.stoppedAt.map fun _ => c, budgetEnd := false
             runAt := none, issued := [], checked := [], broken := [], withheld := [], heldMarks := [], slotLate := [] }
  let s := rput s (.part p) rPartTrvstep 31 0 i
  let s := if clockDiv s = 1 then s else reportBreakRunning p 3 0xF 0xFFFF (srcPart p) s
  match stepRec s p with
  | some r => r.entries.foldl (fun s e => (List.range e.count).foldl (fun s j => startTile p (e.first + j) e.offs s) s) s
  | none => s

/-- STEP_START (R109, R179, R181): the first step at the epoch mark that RUN waits for; the next one when BUDGET
has elapsed, at the first mark from then on where it has ALIGN. -/
def execStepStart (p : Fin 32) (s : State) : Host.Outcome State Fault Refusal :=
  let x := s.part p
  if trvState s p ≠ trvRUNNING then .next s
  else
    match x.runAt, x.trv with
    | some c, some _ => if c ≤ s.markCyc then .next (startStep p 0 c s) else .next s
    | none, some t =>
      match nextStep x (curStep s p), stepRec s p, x.started && x.budgetEnd with
      | some r, some cur, true =>
        match stepCycleAt x cur.budget with
        | some due =>
          let i := if curStep s p + 1 < t.steps.length then curStep s p + 1 else t.loopStep
          if r.align then (if due ≤ s.markCyc then .next (startStep p i (markFrom s due) s) else .next s)
          else .next (startStep p i due s)
        | none => .next s
      | _, _, _ => .next s
    | _, none => .next s

/-- STEP_END (R330, R179): BUDGET step-clock cycles have passed; the completions of jobs closed in the step are
formed, and a finished pass is counted. -/
def execStepEnd (p : Fin 32) (s : State) : Host.Outcome State Fault Refusal :=
  let x := s.part p
  match stepRec s p, x.started && !x.budgetEnd && (trvState s p == trvRUNNING || trvState s p == trvSTOPPING) with
  | some r, true =>
    match stepCycleAt x r.budget with
    | some due =>
      let s := s.upTo due
      let s := formClosed p (s.updPart p fun y => { y with budgetEnd := true })
      let last := match x.trv with | some t => curStep s p + 1 == t.steps.length | none => false
      .next (if last then rsat s (.part p) rPartTrvstep 63 32 1 else s)
    | none => .next s
  | _, _ => .next s

/-- TRAVERSE_END (R115): after the last step of a traverse without LOOP, STATE is LOADED. -/
def execTraverseEnd (p : Fin 32) (s : State) : Host.Outcome State Fault Refusal :=
  let x := s.part p
  if trvState s p = trvRUNNING ∧ x.started ∧ x.budgetEnd ∧ x.runAt = none ∧ (nextStep x (curStep s p)).isNone ∧ x.trv.isSome then
    .next (setTrvState p trvLOADED s)
  else .next s

/-- Whether every context of a partition's tiles and every one of its grotto cores is IDLE or HALTED, and every queue
empty or halted (R115, R244). -/
def partQuiet (s : State) (p : Nat) : Bool :=
  (s.tiles.all fun e => !partHasCluster s p (clusterOfPhys e.1) ||
    ((e.2.ctx.all fun c => c.2.st == .idle || c.2.st == .halted) &&
      e.2.qs.all fun q => q.2.st == .halted || (q.2.held.isEmpty && q.2.inFlight == 0))) &&
  s.grt.all fun e => partOfGrotto s e.1 != some p || !e.2.active

/-- STOP_DONE (R115): the step has run to its budget and the partition is quiet. -/
def execStopDone (p : Fin 32) (s : State) : Host.Outcome State Fault Refusal :=
  let x := s.part p
  if trvState s p = trvSTOPPING ∧ (!x.started || x.budgetEnd) ∧ partQuiet s p then .next (setTrvState p trvLOADED s)
  else .next s

/-- The counter that a plan entry names: the identifier, and on this device its block and index. -/
def planCounter (s : State) (c : CplanRec) : Nat × Cnt :=
  let b := bitsOf c.counter 19 8
  let x : Cnt := if b = 0xFFF then
      (if c.unit = 0xB then grottoCnt c.agent (c.counter % 256) else ⟨c.agent, c.counter % 256⟩)
    else ⟨b, c.counter % 256⟩
  (if c.counter / 2 ^ 20 = devId s then cntId s x else c.counter, x)

/-- The source of reports about a plan's unit. -/
def planSrc (s : State) (c : CplanRec) : Nat := if c.unit = 0xB then srcGrotto c.agent else srcTile (tileAt s c.agent)

/-- A failed check (R182): DEADLINE_MISS, counted by the tile that reports it. -/
def reportMiss (p src : Nat) (c : CplanRec) (s : State) : State :=
  let s := if src < 544 then rsat s (.tile src) rTileCntMiss 31 0 1 else s
  reportBreak p 6 c.unit c.agent src s

/-- DEADLINE_CHECK (R182, R184): entry `i` of the running step's counter plan is checked at its DEADLINE. -/
def execDeadlineCheck (p : Fin 32) (i : Nat) (s : State) : Host.Outcome State Fault Refusal :=
  let x := s.part p
  match stepRec s p with
  | none => .next s
  | some r =>
    match r.cplan[i]?, stepCycleAt x ((r.cplan[i]?.map (·.deadline)).getD 0) with
    | some c, some due =>
      if !x.started || x.checked.contains i || x.paused != [] then .next s
      else
        let s := (s.upTo due).updPart p fun y => { y with checked := i :: y.checked }
        let (id, cnt) := planCounter s c
        if c.isWait then
          match holderOf s cnt with
          | some h => if c.value ≤ holderValue s h then .next s else .next (reportMiss p (holderSrc h) c s)
          | none => .next (reportMiss p (planSrc s c) c s)
        else if x.issued.any fun y => y.agent == c.agent && y.unit == c.unit && y.counter == id &&
            decide (c.value ≤ y.amount) && decide (y.cycle ≤ c.deadline) then .next s
        else .next (reportMiss p (planSrc s c) c s)
    | _, _ => .next s

/-! Invalidation (R268). -/

/-- A write of KVP_XLTINV. -/
def wrKvpXltinv (a : Acc) (p : Nat) (v : Word) (s : State) : State :=
  hostWrite a (.kvp p) rKvpXltinv dKvpXltinv (.ownerVf p) v
    (fun x _ => firstOf [(x.v.bit 63 && x.old.bit 61, .wrongState)])
    (fun x s =>
      if x.v.bit 63 then
        { (rput s (.kvp p) rKvpXltinv 61 61 1).updPart p fun y => { y with xltinv := x.new } with
          walks := s.walks.map fun w => if w.part = p then { w with placed := false } else w }
      else s) s

/-- XLTINV (R268): walks in flight serve only their own accesses. -/
def execXltinv (a : Acc) (p : Fin 32) (v : Word) (s : State) : Host.Outcome State Fault Refusal :=
  .next (wrKvpXltinv a p (v ||| BitVec.ofNat 64 (2 ^ 63)) s)

/-- XLTINV_DONE (R268): every copy that the GO named is removed, pinned ones like any other. -/
def execXltinvDone (p : Fin 32) (s : State) : Host.Outcome State Fault Refusal :=
  let w := (s.part p).xltinv
  if !(rg s (.kvp p) rKvpXltinv).bit 61 then .next s
  else
    let va := w.field 51 16 * 65536
    let keep (e : TEntry) : Bool := e.part != p || (!w.bit 62 && !decide (e.va ≤ va + 65535 ∧ va < e.va + e.size))
    .next (rput { s with
      tiles := s.tiles.map fun e => (e.1, { e.2 with tbuf := e.2.tbuf.filter keep })
      arrivals := s.arrivals.filter keep } (.kvp p) rKvpXltinv 61 61 0)

end Sys2Proof.Machine
end

