-- ==== Sys2Proof/Machine/Repair.lean ====
section
/-! DEFINITION. Row-shift repair in service and degraded rows (R285, R371 to R376, R387). -/
namespace Sys2Proof.Machine

/-- The repair that runs in a row. -/
def repairOf (s : State) (r : Nat) : Option RowRepair :=
  if s.bup.shifting.has r then some (SMap.get ⟨0, 0, true, 0, none, [], false⟩ s.bup.shifting r) else none
/-- The state with the repair of a row. -/
def setRepair (r : Nat) (x : RowRepair) (s : State) : State :=
  { s with bup := { s.bup with shifting := SMap.put r x s.bup.shifting } }
/-- The repair of a row is over. -/
def dropRepair (r : Nat) (s : State) : State := { s with bup := { s.bup with shifting := SMap.drop r s.bup.shifting } }

/-- TILE_ID of a row's tiles follows the map. -/
def renewRow (r : Nat) (s : State) : State := (List.range 17).foldl (fun s c => renewTileId (r * 17 + c) s) s
/-- RETIRED of a physical tile. -/
def markRetired (h : Nat) (s : State) : State :=
  rput s .bup (rBupRowmapr (clusterOfPhys h)) (39 + h % 17) (39 + h % 17) 1
/-- BUSY of PART_REPAIR, where a partition holds the row (R376). -/
def repairBusy (r : Nat) (s : State) : State :=
  match partOfCluster s r with
  | some p => rput s (.part p) rPartRepair 0 0 1
  | none => s

/-- A row carries no logical tiles from now on (R368, R375); the partition logs ROW_DEGRADED. -/
def degradeMap (r lidx : Nat) (s : State) : State :=
  let b := rBupRowmapr r
  let s := rput (rput (rput (rput s .bup b 63 56 0) .bup b 32 32 1) .bup b 12 8 0x1F) .bup b 0 0 0
  renewRow r (match partOfCluster s r with
    | some p => logEvent (srcPart p) .rowDegraded (lidx + 2 ^ 16 * r + 2 ^ 24 * 0x1F + 2 ^ 32 * curStep s p) s
    | none => s)

/-- A row becomes degraded; its repair-complete event follows. -/
def degradeRow (r : Nat) (x : RowRepair) (s : State) : State :=
  repairBusy r (setRepair r { x with degraded := true } (degradeMap r x.lidx s))

/-- ROW_SHIFT_REPAIR (R371, R375): a tile is retired, and its row's repair starts or the row is degraded. -/
def execRowShiftRepair (h : Fin 544) (readable : Bool) (s : State) : Host.Outcome State Fault Refusal :=
  let t := logOf s h
  let s := markRetired h (retireTile h s)
  let r := clusterOfPhys h
  match t, repairOf s r with
  | some t, some x => if x.tile = h ∨ x.degraded then .next s else .next (degradeRow r { x with lidx := t } s)
  | some t, none =>
    let x : RowRepair := { tile := h, lidx := t, readable := readable }
    if (rg s .bup (rBupRowmapr r)).bit 0 then .next (renewTileId h (repairBusy r (setRepair r x s)))
    else .next (degradeRow r x s)
  | none, some x => if x.degraded ∨ h % 17 ≠ 16 then .next s else .next (degradeRow r x s)
  | none, none =>
    if h % 17 = 16 ∧ (rg s .bup (rBupRowmapr r)).bit 0 then
      .next (renewTileId h (rput (rput s .bup (rBupRowmapr r) 12 8 16) .bup (rBupRowmapr r) 0 0 0))
    else .next (renewTileId h s)

/-- Logical tiles that a repair moves. -/
def shiftCount (x : RowRepair) : Nat := 15 - x.lidx % 16

/-- TILE_MIGRATE_DONE (R222, R372): the next tile's lines have been copied one column east, highest column first; the
traffic held for it is delivered after the map switch, when the copy takes its place. -/
def execTileMigrateDone (c : Fin 32) (s : State) : Host.Outcome State Fault Refusal :=
  match repairOf s c with
  | some x =>
    if x.degraded || decide (shiftCount x ≤ x.moved) || !repairMayRun s c then .next s
    else
      let h := c.val * 17 + 15 - x.moved
      let s := copyWords (.slice h) (fun _ => true) (copyWords (.store h) (fun _ => true) s)
      .next (setRepair c { x with moved := x.moved + 1 } s)
  | none => .next s

/-! The refill list (R374). -/

/-- An entry of the refill list (Table BUP-4): VA, SLOFF, LEN, LIDX, LAST. -/
def refillEntry (bs : List Byte) : Nat × Nat × Nat × Nat × Bool :=
  (le bs 0 8, le bs 8 4, le bs 12 4, le bs 16 2, (le bs 18 2).testBit 0)

/-- The list from an address on: the slice as far as it is refilled, and whether the list was applied in full. -/
def refillFrom (p lidx : Nat) : Nat → Nat → Mem → State → Mem × Bool × State
  | 0, _, m, s => (m, false, s)
  | fuel + 1, va, m, s =>
    match readVa p 2 va 32 s with
    | (_, some _, s) => (m, false, s)
    | (bs, none, s) =>
      let (src, off, len, l, last) := refillEntry bs
      if l ≠ lidx then (if last then (m, true, s) else refillFrom p lidx fuel (va + 32) m s)
      else if sliceBytes < off + len then (m, false, s)
      else
        let (data, bad, s) := readVa p (len / 65536 + 2) src len s
        let m := m.writeBytes off data
        if bad.isSome then (m, false, s) else if last then (m, true, s) else refillFrom p lidx fuel (va + 32) m s

/-- Entries that a refill list may have. -/
def refillFuel : Nat := 0x1000000

/-- REFILL_DONE (R374): the list of PART_REFILL is applied or abandoned. -/
def execRefillDone (c : Fin 32) (s : State) : Host.Outcome State Fault Refusal :=
  match repairOf s c with
  | some x =>
    if x.degraded || decide (x.moved < shiftCount x) || x.refill.isSome || !repairMayRun s c then .next s
    else
      match partOfCluster s c with
      | none => .next s
      | some p =>
        let w := rgEff s (.part p) rPartRefill
        if w.bit 63 then
          let (m, ok, s) := refillFrom p x.lidx refillFuel (w.field 51 6 * 64) [] s
          .next (setRepair c { x with refill := some ok, slice := m } s)
        else .next (setRepair c { x with refill := some false } s)
  | none => .next s

/-! The map switch. -/

/-- The step's pins of a tile, walked again (R264). -/
def rewalkPins (old : List TEntry) (s : State) : List TEntry × State :=
  (old.filter (·.pinNow)).foldl (init := ([], s)) fun (b, s) e =>
    let n := walkEntry s e.part e.va
    (b ++ [{ n with pinNow := true }], countWalk e.part e.va (!n.legal s e.va) s)

/-- The error patterns of one memory become those of another. -/
def moveEcc (i j : MemId) (s : State) : State :=
  let e := SMap.get {} s.ecc i.key
  { s with ecc := if e = {} then SMap.drop j.key s.ecc else SMap.put j.key e s.ecc }

/-- What logical tile state `a` looks like on physical tile `b` (R372): what belongs to the silicon stays. -/
def onPhys (a b : Tile) (pins : List TEntry) : Tile :=
  { b with ctx := a.ctx, qs := a.qs, acc := a.acc, poison := a.poison, shadow := a.shadow, active := a.active
           loadDue := a.loadDue, shadowFree := a.shadowFree, bankDone := a.bankDone, lastDrain := a.lastDrain
           matrixBarred := a.matrixBarred, store := a.store, slice := a.slice, img := a.img
           group := a.group, tpin := a.tpin, tpinLate := a.tpinLate, cnt := a.cnt, sat := a.sat, tbuf := pins, answers := a.answers }

/-- The state of one physical tile moves to the one on its east. -/
def moveTile (h : Nat) (s : State) : State :=
  let (pins, s) := rewalkPins (s.tile h).tbuf s
  let s := s.setTile (h + 1) (onPhys (s.tile h) (s.tile (h + 1)) pins)
  moveEcc (.slice h) (.slice (h + 1)) (moveEcc (.store h) (.store (h + 1)) s)

/-- The lost logical tile on its new physical tile (R373): filled, its image reloaded, its counters moved where they can
be read, its slice refilled. -/
def renewLost (x : RowRepair) (p : Nat) (s : State) : State :=
  let old := s.tile x.tile
  let (pins, s) := rewalkPins old.tbuf s
  let h := x.tile + 1
  let fresh : Tile := { slice := x.slice, cnt := if x.readable then old.cnt else [], sat := if x.readable then old.sat else [] }
  let s := s.setTile h (onPhys fresh (s.tile h) pins)
  let s := clearEcc (.slice h) (clearEcc (.store h) s)
  match (s.part p).trv with
  | some t => t.images.foldl (fun s i => if !i.grotto && (imageUnits i).contains x.lidx then placeImage i (.store h) s else s) s
  | none => s

/-- The sequences of lost logical tiles marked HELD and LOST (R285). -/
def markLost (p : Nat) (lost : List Nat) (s : State) : State :=
  let w := rgEff s (.kvp p) rKvpLentab
  if !w.bit 0 then s
  else
    (List.range (w.field 63 48 + 1)).foldl (init := s) fun s i =>
      let a := w.field 47 6 * 64 + 64 * i
      match placeOf a with
      | .stack k x =>
        let home := physNat s (a + 0x26) 2
        if home ≠ 0 ∧ lost.contains (home - 1) then
          let line := s.mem.readBytes x 64
          let line := line.take 12 ++ bytesOf 2 (natOfBytes ((line.drop 12).take 2) ||| 3) ++ (line.drop 14).take 18 ++
            bytesOf 4 (curStep s p) ++ bytesOf 2 Code.tileLost.toNat ++ line.drop 38
          memWrite none (.stack k) x line (ordinaryAccess none k x 64 s)
        else s
      | _ => s

/-- PART_REPAIR at the repair-complete event, and the event. -/
def showRepair (p r hole : Nat) (x : RowRepair) (s : State) : State :=
  let w := (if x.degraded then Code.rowDegraded.toNat else Code.tileLost.toNat) * 2 ^ 48 + r * 2 ^ 35 + hole * 2 ^ 30 +
    x.lidx * 2 ^ 20 + (if x.readable then 0 else 2 ^ 4) + (if x.refill = some true then 2 ^ 3 else 0) +
    (if x.degraded then 2 ^ 2 else 0) + 2
  raiseEvent p (rset s (.part p) rPartRepair (BitVec.ofNat 64 w))

/-- Whether another row of partition `p` is under repair. -/
def otherRepairs (s : State) (p : Nat) : Bool := s.bup.shifting.any fun e => partHasCluster s p e.1

/-- The map of a row with hole `c` (R368). -/
def switchMap (r c : Nat) (s : State) : State :=
  rput (rput s .bup (rBupRowmapr r) 12 8 c) .bup (rBupRowmapr r) 0 0 0

/-- REPAIR_COMPLETE (R264, R285, R373, R375, R376). -/
def execRepairComplete (c : Fin 32) (s : State) : Host.Outcome State Fault Refusal :=
  match repairOf s c with
  | none => .next s
  | some x =>
    match partOfCluster s c with
    | none =>
      if x.degraded then .next (renewRow c (dropRepair c s))
      else
        let s := renewRow c (switchMap c (x.tile % 17) (dropRepair c s))
        .next ((List.range (shiftCount x + 1)).foldl (fun s j => restartKat (x.tile + 1 + j) s) s)
    | some p =>
      if x.degraded then
        let s := markLost p ((List.range 16).map (c.val * 16 + ·)) (dropRepair c s)
        let s := showRepair p c 0x1F x s
        .next (if otherRepairs s p then s else (clustersOf s p).foldl (fun s r => wantResume r s) s)
      else if x.refill.isNone || decide (x.moved < shiftCount x) || !repairMayRun s c then .next s
      else
        let s := (List.range (shiftCount x)).foldl (fun s j => moveTile (c.val * 17 + 15 - j) s) s
        let s := renewLost x p s
        let s := markLost p [x.lidx] s
        let s := renewRow c (switchMap c (x.tile % 17) (dropRepair c s))
        let s := (List.range (shiftCount x + 1)).foldl (fun s j => restartKat (x.tile + 1 + j) s) s
        let s := if x.readable then
            s.updPart p fun y => { y with repairs := y.repairs.filter fun e => !(e.1 == c.val) } else s
        let s := showRepair p c (x.tile % 17) x s
        .next (if otherRepairs s p then s else (clustersOf s p).foldl (fun s r => wantResume r s) s)

/-! The clock monitor (R387). -/

/-- A cluster whose PLL has failed stops: its mapped tiles are lost, and its row is treated as a degraded one. -/
def stopCluster (r : Nat) (s : State) : State :=
  let s := logEvent (srcPll r) .clockFault 0 s
  let lost := (List.range 16).filter fun c => (physOf s (r * 16 + c)).isSome
  let p := partOfCluster s r
  let step := match p with | some p => curStep s p | none => 0
  let s := lost.foldl (fun s c =>
    let h := tileAt s (r * 16 + c)
    logEvent (srcTile h) .tileLost (r * 16 + c + 2 ^ 16 * r + 2 ^ 24 * 0x1F + 2 ^ 32 * step) s) s
  let w := (rg s .clk rClkPll).putBit r false
  let s := rset s .clk rClkPll (w.putBit (32 + r) false)
  let s := { s with bup := { s.bup with clockDead := r :: s.bup.clockDead } }
  match lost with
  | [] => s
  | c :: _ =>
    let s := match p with
      | some p =>
        let s := (raiseFault p s).updPart p fun x => { x with repairs := x.repairs ++ [(r, r * 17)] }
        if traverseRuns s p then wantPause r (withhold p .tileLost s) else s
      | none => s
    degradeRow r { tile := tileAt s (r * 16 + c), lidx := r * 16 + c, readable := true } s

/-- CLOCK_MONITOR (R387). A fault of the saddle clock while it runs from its standby lies outside the guarantee. -/
def execClockMonitor (f : ClockFindings) (s : State) : Host.Outcome State Fault Refusal :=
  if f.saddle && (rg s .clk rClkState).bit 3 then .fault .saddleClockLost
  else
    let s := (List.range 32).foldl (fun s r =>
      if f.clusters.getLsbD r && (rg s .clk rClkPll).bit (32 + r) then stopCluster r s else s) s
    let s := if f.saddle then raisePF0 1 (logEvent srcSaddleClock .clockFault 0 (rput s .clk rClkState 3 3 1)) else s
    .next (if f.glow && !(rg s .clk rClkState).bit 2 then logEvent srcGlowClock .clockFault 0 (rput s .clk rClkState 2 2 1) else s)

end Sys2Proof.Machine
end

