-- ==== Sys2Proof/Machine/Resets.lean ====
section
/-! DEFINITION. Tile, cluster, partition and device resets (R377 to R381, Tables BUP-5 and BUP-6). -/
namespace Sys2Proof.Machine

/-! Scopes. -/

/-- Whether physical tile `h` lies in a scope. -/
def scopeHasTile (s : State) (x : ResetScope) (h : Nat) : Bool :=
  match x with
  | .tile t => physOf s t == some h
  | .cluster c => c.val == clusterOfPhys h
  | .part p => partHasCluster s p (clusterOfPhys h)
  | .device => true

/-- Whether scope `y` lies inside scope `x`, or is the same. -/
def scopeInside (s : State) (x y : ResetScope) : Bool :=
  match x, y with
  | .device, _ => true
  | .part p, .part q => p == q
  | .part p, .cluster c => partHasCluster s p c
  | .part p, .tile t => partHasCluster s p (clusterOf t)
  | .cluster c, .cluster d => c == d
  | .cluster c, .tile t => c.val == clusterOf t
  | .tile t, .tile u => t == u
  | _, _ => false

/-- SCOPE and TARGET of RST_STAT. -/
def scopeCode : ResetScope → Nat
  | .tile t => t.val * 2 ^ 32
  | .cluster c => 2 ^ 60 + c.val * 2 ^ 32
  | .part p => 2 * 2 ^ 60 + p.val * 2 ^ 32
  | .device => 3 * 2 ^ 60

/-- Contexts, queues, blocks and buffers of a tile cleared; store, slice, counters and image kept (Table BUP-5). -/
def Tile.reset (t : Tile) : Tile :=
  { t with ctx := [], qs := [], acc := [], poison := [], shadow := none, active := none, loadDue := none
           shadowFree := 0, tbuf := [], answers := [], group := none, tpin := none, tpinLate := [] }

/-- What a tile discards at once: queue commands that have not started, and a group still filling. -/
def Tile.discard (t : Tile) : Tile :=
  { t with
    qs := t.qs.map fun e => (e.1, { e.2 with held := [], headReady := false, headMet := none, wake := none })
    group := match t.group with
      | some g => (match g.phase with | .filling => none | _ => some g)
      | none => none }

/-- The tiles of a scope changed. -/
def mapTiles (x : ResetScope) (f : Tile → Tile) (s : State) : State :=
  { s with tiles := s.tiles.map fun (e : Nat × Tile) => (e.1, if scopeHasTile s x e.1 then f e.2 else e.2) }

/-! Requests. -/

/-- A grotto core stopped at its instruction boundary (Table BUP-6). -/
def Grotto.stop (c : Nat) (g : Grotto) : Grotto := { g.rest c with st := .idle, wait := .none, launchDue := none }

/-- The grotto cores of a scope stop. -/
def stopCores (x : ResetScope) (s : State) : State :=
  { s with grt := s.grt.map fun (e : Nat × Grotto) =>
      (e.1, match x with
        | .part p => if partOfGrotto s e.1 = some p.val then e.2.stop s.cyc else e.2
        | .device => e.2.stop s.cyc
        | _ => e.2) }

/-- A scope's reset starts: narrower ones inside it are taken over (R381), issue stops, what has not started is
discarded (R379). -/
def startReset (x : ResetScope) (s : State) : State :=
  let s := stopCores x s
  let s := { s with bup := { s.bup with resets := x :: s.bup.resets.filter fun y => !scopeInside s x y } }
  mapTiles x Tile.discard (rset s .rst rRstStat (BitVec.ofNat 64 (2 ^ 63 + scopeCode x)))

/-- Whether a running reset contains a scope (R381). -/
def insideReset (s : State) (x : ResetScope) : Bool := s.bup.resets.any fun y => scopeInside s y x

/-- Whether a tile or cluster may be reset: its partition is not RUNNING, or the cluster is paused (R377). -/
def mayReset (s : State) (r : Nat) : Bool :=
  match partOfCluster s r with
  | some p => !partRunning s p || clusterPaused s r
  | none => true

/-- The scope that RST_REQ names. -/
def scopeOf (w : Word) : Option ResetScope :=
  let t := w.field 9 0
  match w.field 59 58 with
  | 0 => if h : t < 512 then some (.tile ⟨t, h⟩) else none
  | 1 => if h : t < 32 then some (.cluster ⟨t, h⟩) else none
  | 3 => if t = 0 then some .device else none
  | _ => none

/-- The cluster that a scope of RST_REQ lies in. -/
def scopeCluster : ResetScope → Option Nat
  | .tile t => some (clusterOf t)
  | .cluster c => some c
  | _ => none

/-- A device reset begins (R304, R308, R377): RST_CAUSE counts it, and time is in holdover, in every role. -/
def startDeviceReset (cause : Nat) (s : State) : State :=
  let s := rput (rsat s .rst rRstCause 63 32 1) .rst rRstCause 3 0 cause
  let s := startReset .device s
  enterHoldover s

/-- A write of RST_REQ (R377, R381). -/
def wrRstReq (a : Acc) (v : Word) (s : State) : State :=
  let new := mergeWrite dRstReq (halfBits a.half) (rg s .rst rRstReq) (v &&& halfBits a.half)
  let who : Admit :=
    if a.port == stewardPort s then .steward
    else match (scopeOf new).bind scopeCluster with
      | some r => .owner (partOfCluster s r)
      | none => .steward
  hostWrite a .rst rRstReq dRstReq who v
    (fun x s =>
      let go := x.v.bit 63
      let sc := x.new.field 59 58
      let key := x.new.field 23 16
      firstOf [(go && sc != 2 && (scopeOf x.new).isNone, .outOfRange),
        (if go && sc == 3 then key != 0xD7 else key != 0, .illegalValue),
        (go && sc == 2, .illegalValue),
        (go && (match scopeOf x.new with
          | some y => insideReset s y || (match scopeCluster y with | some r => !mayReset s r | none => false)
          | none => false), .wrongState)])
    (fun x s =>
      match x.v.bit 63, scopeOf x.new with
      | true, some .device => startDeviceReset 1 s
      | true, some y => startReset y s
      | _, _ => s) s

/-- TILE_RESET (R377). -/
def execTileReset (a : Acc) (v : Word) (s : State) : Host.Outcome State Fault Refusal :=
  .next (wrRstReq a ((v.put 59 58 0) ||| BitVec.ofNat 64 (2 ^ 63)) s)

/-- CLUSTER_RESET (R377). -/
def execClusterReset (a : Acc) (v : Word) (s : State) : Host.Outcome State Fault Refusal :=
  .next (wrRstReq a ((v.put 59 58 1) ||| BitVec.ofNat 64 (2 ^ 63)) s)

/-- DEVICE_RESET (R377). -/
def execDeviceReset (a : Acc) (v : Word) (s : State) : Host.Outcome State Fault Refusal :=
  .next (wrRstReq a ((v.put 59 58 3) ||| BitVec.ofNat 64 (2 ^ 63)) s)

/-- The traverse and the host queues of a partition under reset: EMPTY, C = 0, open jobs dropped (R332, Table BUP-5); no
RUN is held (R192), nothing pauses it, and BREAKS counts from here (PART_DBRKCNT). -/
def dropTraverse (p : Nat) (s : State) : State :=
  let s := setTrv p 0 0 noOffset (cancelRun p s)
  let s := rput s (.part p) rPartTrvstep 31 0 0
  let s := rset s (.part p) rPartPause 0
  let s := rput s (.part p) rPartDbrkcnt 31 0 0
  dropImages p (s.setPart p {})

/-- A write of PART_RESET (R377). -/
def wrPartReset (a : Acc) (p : Fin 32) (v : Word) (s : State) : State :=
  hostWrite a (.part p) rPartReset dPartReset (.ownerVf p) v
    (fun x s => firstOf [(x.v.bit 63 && (x.old.bit 62 || insideReset s (.part p)), .wrongState)])
    (fun x s =>
      if x.v.bit 63 then
        dropTraverse p (startReset (.part p) (rput (rput s (.part p) rPartReset 62 62 1) (.part p) rPartReset 15 0 0))
      else s) s

/-- PART_RESET (R377). -/
def execPartReset (a : Acc) (p : Fin 32) (v : Word) (s : State) : Host.Outcome State Fault Refusal :=
  .next (wrPartReset a p (v ||| BitVec.ofNat 64 (2 ^ 63)) s)

/-- A write of RST_ERRCODE. -/
def wrRstErrcode (a : Acc) (v : Word) (s : State) : State :=
  hostWrite a .rst rRstErrcode dRstErrcode .anyPF0 v noCheck (clearErr .rst rRstErrcode) s

/-! Completion. -/

/-- Whether a tile has drained: nothing that had started is still in flight, no group is past CGCOMMIT (Table BUP-6). -/
def Tile.drained (t : Tile) : Bool := t.qs.all (fun e => e.2.flights.all (·.done)) && t.group.isNone

/-- Whether a scope has drained, its repairs having ended their migration (R376, R379). -/
def drained (s : State) (x : ResetScope) : Bool :=
  (s.tiles.all fun e => !scopeHasTile s x e.1 || e.2.drained) &&
    s.bup.shifting.all fun e =>
      !(scopeInside s x (.cluster (Fin.ofNat 32 e.1)) || scopeHasTile s x e.2.tile) || e.2.degraded ||
        decide (shiftCount e.2 ≤ e.2.moved)

/-- The refills of a scope's repairs are abandoned (R376). -/
def abandonRefills (x : ResetScope) (s : State) : State :=
  { s with bup := { s.bup with shifting := s.bup.shifting.map fun (e : Nat × RowRepair) =>
      (e.1, if e.2.refill.isNone && (scopeInside s x (.cluster (Fin.ofNat 32 e.1)) || scopeHasTile s x e.2.tile) then
        { e.2 with refill := some false } else e.2) } }

/-- Walks for the tiles of a scope are dropped with the data that returns to it. -/
def dropWalks (x : ResetScope) (s : State) : State :=
  { s with walks := s.walks.filter fun w =>
      match w.why with
      | .tpin t _ | .use t _ => !scopeHasTile s x (tileAt s t)
      | .arrival => true }

/-- A grotto core after its partition's reset (Table BUP-5). -/
def Grotto.reset (g : Grotto) : Grotto :=
  { g with pc := 0, cnt := [], sat := [], launches := 0, st := .idle, code := 0, img := none, wait := .none, launchDue := none }

/-- Counters and cores of a partition: zero, IDLE. -/
def clearPart (p : Nat) (s : State) : State :=
  let mine (i : Nat) : Bool := partOfGroup s (i / 64) == some p
  { s with
    tiles := s.tiles.map fun (e : Nat × Tile) =>
      (e.1, if partHasCluster s p (clusterOfPhys e.1) then { e.2 with cnt := [], sat := [], matrixBarred := false } else e.2)
    grt := s.grt.map fun (e : Nat × Grotto) => (e.1, if partOfGrotto s e.1 = some p then e.2.reset else e.2)
    hv := s.hv.filter fun e => !mine e.1
    hvSat := s.hvSat.filter fun i => !mine i }

/-- Registers that a device reset keeps: HIF views less HIF_PCOMMIT, RST, RAS and LOG, THM, TIME, and of the CLK block the
rails, the power averages and what CLK_STATE says of the clocks now (Table BUP-5). -/
def keptRegs (s : State) : SMap Word :=
  let inBlk (b : Blk) (n o : Nat) : Bool := decide (b.base ≤ o ∧ o < b.base + n)
  let kept (o : Nat) : Bool :=
    (inBlk (.hif false) 0x100000 o && o != (Blk.hif false).base + rHifPcommit) ||
      (inBlk (.hif true) 0x100000 o && o != (Blk.hif true).base + rHifPcommit) ||
      inBlk .rst 0x100000 o || inBlk .ras 0x100000 o || inBlk .thm 0x100000 o || inBlk .time 0x100000 o ||
      (inBlk .clk 0x100000 o && decide (Blk.clk.base + 0x100 ≤ o))
  let m := s.regs.filter fun e => kept e.1
  let m := SMap.put (Blk.clk.base + rClkState) ((rg s .clk rClkState) &&& Word.mask 11 0) m
  SMap.put (Blk.clk.base + rPwrStat) ((rg s .clk rPwrStat) &&& Word.mask 63 32) m

/-- The state after a device reset (Table BUP-5, R379): everything in the core domain at its reset value, bring-up at step
3 DONE. -/
def afterDeviceReset (s : State) : State :=
  let t : State := { State.reset with
    pending := s.pending, free := s.free, flt := s.flt, sent := s.sent, cyc := s.cyc, markCyc := s.markCyc, resetAt := s.cyc
    regs := keptRegs s
    hostMem0 := s.hostMem0, hostMem1 := s.hostMem1, guestMem := s.guestMem
    port0 := s.port0, port1 := s.port1, steward := s.steward, time := s.time, glow := s.glow, therm := s.therm
    cairn := s.cairn
    sec := { keyRevBurnt := s.sec.keyRevBurnt, minSvnBurnt := s.sec.minSvnBurnt
             restarts := s.sec.restarts, failures := s.sec.failures, lockedAt := s.sec.lockedAt
             goodRecordAt := s.cyc }
    bup := { fusesRead := s.bup.fusesRead, testN := s.bup.testN, vglow := s.bup.vglow, railNext := s.bup.railNext
             retries := s.bup.retries, records := s.bup.records } }
  let t := rput t .gst rGstCtrl 51 40 Config.gvnom.toNat
  let t := setTimeState (if timeRole t = 0 then 0 else timeACQUIRING) t
  setBup 0 3 2 false 0 t

/-- RST_STAT and the vector at the end of a reset (R379). -/
def showReset (x : ResetScope) (s : State) : State :=
  let w := rg s .rst rRstStat
  let s := if w.field 62 60 * 2 ^ 60 + w.field 41 32 * 2 ^ 32 = scopeCode x then
      rput (rput s .rst rRstStat 63 63 0) .rst rRstStat 15 0 0 else s
  raisePF0 8 s

/-- RESET_DONE (R379): the scope has drained and is cleared. -/
def execResetDone (x : ResetScope) (s : State) : Host.Outcome State Fault Refusal :=
  if !s.bup.resets.contains x then .next s
  else
    match x with
    | .device =>
      if drained s .device || rf s .rst rRstCause 3 0 == 2 then .next (showReset x (afterDeviceReset s)) else .next s
    | _ =>
      if !drained s x then .next s
      else
        let s := dropWalks x (mapTiles x Tile.reset (abandonRefills x s))
        let s := match x with
          | .part p => rput (clearPart p s) (.part p) rPartReset 62 62 0
          | _ => s
        .next (showReset x { s with bup := { s.bup with resets := s.bup.resets.filter (· != x) } })

end Sys2Proof.Machine
end

