-- ==== Sys2Proof/Machine/Power.lean ====
section
/-! DEFINITION. Supply dips, power limits, clocks, sensors, forecasts, throttling, shutdown and coolant (R403 to R430). -/
namespace Sys2Proof.Machine

/-! Supply monitors (R407 to R411). -/

/-- The rail of a voltage monitor (Table PWR-6). -/
def railOfMonitor (m : Nat) : Nat :=
  if m < 64 then 0 else if m < 80 then 1 else if m < 112 then 2 else if m < 144 then 3 else if m < 194 then 4
  else if m = 194 then 5 else if m < 197 then 6 else 7

/-- Whether a monitor watches a core-domain rail. -/
def coreMonitor (m : Nat) : Bool := decide (m < 194)

/-- A break of cause `c` in every RUNNING partition. -/
def breakAll (c : Nat) (s : State) : State :=
  (List.range 32).foldl (fun s p => reportBreakRunning p c 0xF 0xFFFF (srcPart p) s) s

/-- SUPPLY_DROOP (R407): a core-domain monitor falls below warning, and the clocks stretch. -/
def execSupplyDroop (m : Fin 201) (_mv : Nat) (s : State) : Host.Outcome State Fault Refusal :=
  if !coreMonitor m || s.therm.low.contains m.val then .next s
  else .next (rput { s with therm := { s.therm with low := m.val :: s.therm.low } } .clk rClkState 1 1 1)

/-- SUPPLY_DIP (R408): the droop has lasted 500 ns; commit groups freeze. -/
def execSupplyDip (m : Fin 201) (s : State) : Host.Outcome State Fault Refusal :=
  if !s.therm.low.contains m.val || s.therm.warned.contains m.val then .next s
  else
    let first := s.therm.warned.isEmpty
    let s := setRail (railOfMonitor m) 3 { s with therm := { s.therm with warned := m.val :: s.therm.warned } }
    .next (if first then breakAll 4 (rsat (rput s .clk rClkState 0 0 1) .clk rPwrStat 15 0 1) else s)

/-- SUPPLY_RECOVER (R407, R409): a monitor is back above warning; with the last one stretching and the freeze end. The
cycles stretched, each at most 1.25 times its length, are free within the duration. -/
def execSupplyRecover (m : Fin 201) (lowest durationNs : Nat) (s : State) : Host.Outcome State Fault Refusal :=
  if !s.therm.low.contains m.val then .next s
  else
    let t := s.therm
    let low := t.low.filter (· != m.val)
    let back := if t.warned.contains m.val then t.back ++ [(m.val, lowest, durationNs)] else t.back
    let s := { s with therm := { t with low := low, back := back } }
    let s := if low.any (fun x => railOfMonitor x == railOfMonitor m) || railState s (railOfMonitor m) != 3 then s
      else setRail (railOfMonitor m) 2 s
    if low.isEmpty then
      let (n, s) := s.draw
      let cycles := durationNs * 6 / 5 + n % (durationNs * 3 / 10 + 1)
      let s := rsat (rput (rput s .clk rClkState 1 1 0) .clk rClkState 0 0 0) .clk rClkState 63 32 cycles
      let s := if t.sustained || back.isEmpty then s
        else raisePF0 4 (back.foldl (fun s x =>
          logEvent (srcMonitor x.1) .supplyWarning (x.2.1 % 2 ^ 16 + x.2.2 % 2 ^ 32 * 2 ^ 16) s) s)
      .next { s with therm := { s.therm with warned := [], back := [], sustained := false, calmFrom := s.cyc } }
    else .next s

/-- SUPPLY_SUSTAINED (R409): the warning has lasted 100 µs; skipping at SUPLVL follows at the next epoch mark. -/
def execSupplySustained (m : Fin 201) (lowest : Nat) (s : State) : Host.Outcome State Fault Refusal :=
  if !s.therm.warned.contains m.val || s.therm.sustained then .next s
  else
    let s := rsat (logEvent (srcMonitor m) .supplySustained (lowest % 2 ^ 16) s) .clk rPwrStat 23 16 1
    .next { s with therm := { s.therm with sustained := true, supplyNext := rf s .clk rPwrLimit 2 0 } }

/-- SUPPLY_RESET (R410). -/
def execSupplyReset (m : Fin 201) (lowest : Nat) (s : State) : Host.Outcome State Fault Refusal :=
  if !coreMonitor m then .next s
  else .next (startDeviceReset 2 (logEvent srcBup .supplyReset (lowest % 2 ^ 16 + m.val * 2 ^ 16) s))

/-- The guest held in reset, its link dropped (R351, R411, R426). -/
def holdGuest (s : State) : State :=
  if !Config.variantG || (rg s .gst rGstCtrl).bit 1 then s else loseGuest 0 (rput s .gst rGstCtrl 1 1 1)

/-- RAIL_WARNING (R411): a warning on VIO is logged; one on VGST holds the guest in reset. -/
def execRailWarning (m : Fin 201) (lowest durationNs : Nat) (s : State) : Host.Outcome State Fault Refusal :=
  if m.val = 194 then
    .next (logEvent (srcMonitor m) .supplyWarning (lowest % 2 ^ 16 + durationNs % 2 ^ 32 * 2 ^ 16) s)
  else if 197 ≤ m.val then .next (holdGuest s)
  else .next s

/-! PMBus and AVSBus (R404, R405). -/

/-- The first monitor of a rail. -/
def firstMonitor (r : Nat) : Nat :=
  match r with | 0 => 0 | 1 => 64 | 2 => 80 | 3 => 112 | 4 => 144 | 5 => 194 | 6 => 195 | _ => 197

/-- A regulator's report: logged with bit 63 of DATA, and PF0 vector 4; nothing else follows (R404). -/
def reportRegulator (r : Nat) (s : State) : State :=
  raisePF0 4 (logEvent (srcMonitor (firstMonitor r)) .supplyWarning (2 ^ 63) s)

/-- One rail's answers. -/
def pollRail (s : State) (x : PmbusReading) : State :=
  let r := x.rail.val
  let miss (n : Nat) (s : State) : State := { s with therm := { s.therm with pmbusMiss := SMap.put r n s.therm.pmbusMiss } }
  match x.status with
  | none =>
    let n := SMap.get 0 s.therm.pmbusMiss r + 1
    let s := miss n s
    if n = 3 then reportRegulator r s else s
  | some w =>
    let s := rput (rput (miss 0 s) .clk (rPwrRailr r) 63 48 x.iout.toNat) .clk (rPwrRailr r) 15 8 (w.toNat % 256)
    if x.fault then reportRegulator r s else s

/-- PMBUS_POLL (R404). -/
def execPmbusPoll (r : List PmbusReading) (s : State) : Host.Outcome State Fault Refusal :=
  .next (r.foldl (fun s x => if railState s x.rail == 0 then s else pollRail s x) s)

/-- AVSBUS_COMPLETION (R405): the higher setpoint is reached, and the undo of a division may follow. -/
def execAvsbusCompletion (r : Fin 8) (s : State) : Host.Outcome State Fault Refusal :=
  if r.val = 0 ∧ s.therm.undoDiv = some false then .next { s with therm := { s.therm with undoDiv := some true } } else .next s

/-! Cluster PLLs (R414). -/

/-- A write of CLK_PLL. -/
def wrClkPll (a : Acc) (v : Word) (s : State) : State :=
  hostWrite a .clk rClkPll dClkPll .steward v
    (fun x s =>
      let off := (List.range 32).any fun r => x.old.bit r && !x.new.bit r && (partOfCluster s r).isSome
      let on := (List.range 32).any fun r =>
        !x.old.bit r && x.new.bit r && ((rg s .bup (rBupRowmapr r)).bit 32 || s.bup.clockDead.contains r)
      firstOf [(off || on, .wrongState)])
    (fun x s => rput s .clk rClkPll 63 32 ((x.new &&& (x.new >>> 32)).field 31 0)) s

/-- PLL_ON (R414). -/
def execPllOn (a : Acc) (v : Word) (s : State) : Host.Outcome State Fault Refusal := .next (wrClkPll a v s)

/-- PLL_LOCKED (R414). -/
def execPllLocked (c : Fin 32) (s : State) : Host.Outcome State Fault Refusal :=
  if (rg s .clk rClkPll).bit c && !s.therm.stopped then .next (rput s .clk rClkPll (32 + c) (32 + c) 1) else .next s

/-- A write of PWR_LIMIT. -/
def wrPwrLimit (a : Acc) (v : Word) (s : State) : State :=
  hostWrite a .clk rPwrLimit dPwrLimit .steward v
    (fun x _ =>
      let s1 := x.new.field 27 16
      let s10 := x.new.field 39 28
      firstOf [(x.new.field 2 0 == 0 || decide (s1 < 100 ∨ 2400 < s1 ∨ s10 < 100 ∨ 2800 < s10), .illegalValue)]) noAct s

/-- A write of PWR_ERRCODE. -/
def wrPwrErrcode (a : Acc) (v : Word) (s : State) : State :=
  hostWrite a .clk rPwrErrcode dPwrErrcode .steward v noCheck (clearErr .clk rPwrErrcode) s

/-! Throttling. -/

/-- The level of skipping in effect: the highest of the three (R415). -/
def skipLevel (s : State) : Nat := max s.therm.thermLvl (max s.therm.powerLvl s.therm.supplyLvl)

/-- The slot counts of the slice controllers follow mode and division (R198, R415). -/
def renewSlots (s : State) : State :=
  let s := (List.range 32).foldl (fun s r => noteSlots r (rf s (.tile (r * 17)) rTileSlState 11 8 * 2 ^ divNow s) s) s
  (List.range 544).foldl (fun s h =>
    rput s (.tile h) rTileSlState 20 16 (rf s (.tile h) rTileSlState 11 8 * 2 ^ divNow s)) s

/-- VCORE's setpoint at a division (R405). -/
def vcoreAt (d : Nat) : Nat := if d = 0 then Config.vnom else if d = 1 then Config.vnom - 50 else Config.vnom - 75

/-- The clocks divided further, at once (R424): a THROTTLE break, and the lower VCORE. -/
def divideTo (d : Nat) (s : State) : State :=
  if d ≤ divNow s then s
  else
    let s := { rput s .clk rClkState 11 10 d with therm := { s.therm with divHot := 0, divCool := 0, undoDiv := none } }
    requestSet 0 (vcoreAt d) (breakAll 3 (renewSlots s))

/-- The sensor with the highest forecast. -/
def hottest (s : State) : Nat := rf s .thm rThmState 47 32

/-- Thermal enforcement (R423): it starts at the next epoch mark at level max(REQLVL, 1). -/
def enforce (s : State) : State :=
  let lvl := max (rf s .thm rThmSlow 2 0) 1
  if s.therm.thermNext = 0 then
    logEvent (srcSensor (hottest s)) .thermEnforced (lvl + 16)
      { s with therm := { s.therm with thermNext := lvl, hotRounds := 0, coolRounds := 0 } }
  else { s with therm := { s.therm with thermNext := max s.therm.thermNext lvl } }

/-- GRACE_EXPIRY (R421). -/
def execGraceExpiry (s : State) : Host.Outcome State Fault Refusal :=
  match s.therm.graceEnd with
  | none => .next s
  | some e =>
    let s := s.upTo e
    .next (enforce (rput { s with therm := { s.therm with graceEnd := none } } .thm rThmSlow 31 16 0))

/-- A slow request (R421, R422); only KIND 1 starts a grace. -/
def slowRequest (kind lvl src : Nat) (fc : Int) (s : State) : State :=
  let s := rput (rput s .thm rThmSlow 7 6 kind) .thm rThmSlow 2 0 lvl
  let s := { s with therm := { s.therm with graceEnd := none, answered := false, reqCalm := 0 } }
  let s := if kind = 1 then
      let g := rf s .thm rThmSlow 41 32
      rput { s with therm := { s.therm with graceEnd := some (s.cyc + g * cycPerMs) } } .thm rThmSlow 31 16 g
    else rput s .thm rThmSlow 31 16 0
  raisePF0 3 (logEvent src .thermSlow (lvl + 16 * kind + 2 ^ 16 * unsignedOf 16 fc) s)

/-- A write of THM_SLOW: ACK (R422). -/
def wrThmSlow (a : Acc) (v : Word) (s : State) : State :=
  hostWrite a .thm rThmSlow dThmSlow .steward v
    (fun x _ =>
      let g := x.new.field 41 32
      firstOf [(x.v.bit 8 && decide (x.new.field 11 9 < x.old.field 2 0), .illegalValue),
        (decide (g < 5 ∨ 1000 < g), .illegalValue),
        (x.v.bit 8 && x.old.field 2 0 == 0, .wrongState)])
    (fun x s =>
      if x.v.bit 8 then
        rput { s with therm := { s.therm with graceEnd := none, answered := true } } .thm rThmSlow 31 16 0
      else s) s

/-- ACK (R422). -/
def execAck (a : Acc) (v : Word) (s : State) : Host.Outcome State Fault Refusal := .next (wrThmSlow a (v ||| 0x100) s)

/-! Coolant (R427 to R429). -/

/-- Flow taken as stopped (R429): `trig` 0 FLOW, 1 interrupt, 2 rate of rise. -/
def coolStop (trig : Nat) (s : State) : State :=
  let s := { s with therm := { s.therm with flowOk := 0 } }
  if (rg s .thm rThmState).bit 55 then s
  else divideTo 2 (logEvent (srcSensor 1353) .coolantStopped trig (rput s .thm rThmState 55 55 1))

/-- The coolant input is stale (R427, R463). -/
def staleCoolant (s : State) : State :=
  if (rg s .thm rThmCoolant).bit 62 then s
  else logEvent (srcSensor 1352) .sensorSuspect 1352 (rput s .thm rThmCoolant 62 62 1)

/-- A write of THM_COOLANT (R427). -/
def wrThmCoolant (a : Acc) (v : Word) (s : State) : State :=
  hostWrite a .thm rThmCoolant dThmCoolant .steward v
    (fun x _ => firstOf [(x.new.field 11 0 == 0, .illegalValue),
      (!x.new.bit 63 && (x.new.field 47 32 != x.old.field 47 32 || x.new.field 23 16 != x.old.field 23 16), .wrongState)])
    (fun x s =>
      if x.new.bit 63 && a.half == .full then
        rput { s with therm := { s.therm with lastCoolant := some s.cyc, flowKnown := true } } .thm rThmCoolant 62 62 0
      else s) s

/-- COOLANT_WRITE (R427). -/
def execCoolantWrite (a : Acc) (v : Word) (s : State) : Host.Outcome State Fault Refusal := .next (wrThmCoolant a v s)

/-- COOLANT_STALE (R427): 500 ms without a write. -/
def execCoolantStale (s : State) : Host.Outcome State Fault Refusal :=
  if !(rg s .thm rThmCoolant).bit 63 then .next s
  else
    match s.therm.lastCoolant with
    | some c => .next (staleCoolant (s.upTo (c + 500 * cycPerMs)))
    | none => .next (staleCoolant s)

/-- I3C_ZERO_FLOW (R429, R463). -/
def execI3cZeroFlow (s : State) : Host.Outcome State Fault Refusal :=
  .next (coolStop 1 (rput s .thm rThmCoolant 61 61 1))

/-- A write of THM_SENSn: SUSPECT is cleared by writing 1 (R419). -/
def wrThmSens (a : Acc) (n : Nat) (v : Word) (s : State) : State :=
  hostWrite a .thm (rThmSensn n) dThmSensn .steward v noCheck noAct s
/-- A write of THM_ERRCODE. -/
def wrThmErrcode (a : Acc) (v : Word) (s : State) : State :=
  hostWrite a .thm rThmErrcode dThmErrcode .steward v noCheck (clearErr .thm rThmErrcode) s

/-! The housekeeping round (R417 to R430). -/

/-- What a round makes of a spot: its first sensor, forecast and governing reading in units of 0.25 °C. -/
structure Spot where
  n : Nat
  fc : Int
  gov : Int
  deriving DecidableEq, Repr

/-- The reading of a sensor in this round. -/
def readingOf (r : Round) (s : State) (n : Nat) : Option Int :=
  match r.sensors.find? fun x => x.1.val == n with
  | some x => x.2
  | none => some (SMap.get 0 s.therm.lastReads n)

/-- The inlet temperature in °C and the flow that the forecast uses (R427). -/
def coolantNow (s : State) : Nat × Nat :=
  let w := rg s .thm rThmCoolant
  (if w.bit 62 then 40 else w.field 23 16, w.field 47 32)

/-- The forecast of a spot. -/
def forecastOf (r : Round) (s : State) (n : Nat) : Int :=
  Config.forecast n s.therm.lastReads (coolantNow s).1 (coolantNow s).2 r.power

/-- Physical neighbours of a physical tile within its peak. -/
def neighbours (h : Nat) : List Nat :=
  let c := h % 17
  let r := h / 17 % 16
  (if c = 0 then [] else [h - 1]) ++ (if c = 16 then [] else [h + 1]) ++
    (if r = 0 then [] else [h - 17]) ++ (if r = 15 then [] else [h + 17])

/-- `2 k (x - E)` for a reading `x` of tile `h` and its estimate E, `k` the number of neighbours (R418). -/
def offEstimate (s : State) (h : Nat) (fc x : Int) : Int :=
  let ns := neighbours h
  2 * ns.length * x - (ns.foldl (fun m j => m + governOf s (2 * j)) 0 + ns.length * fc)

/-- Whether a reading lies outside -20 to 150 °C. -/
def outOfBand (x : Int) : Bool := decide (x < -80 ∨ 600 < x)

/-- Whether a sensor of a pair is implausible (R418). -/
def implausible (s : State) (h : Nat) (fc : Int) : Option Int → Bool
  | none => true
  | some x => outOfBand x || decide (96 * (neighbours h).length < (offEstimate s h fc x).natAbs)

/-- The register of a sensor. -/
def setSens (n : Nat) (fc gov : Int) (read : Option Int) (suspect disagree : Bool) (how : Nat) (s : State) : State :=
  let old := rg s .thm (rThmSensn n)
  let rd := match read with | some x => unsignedOf 16 x | none => old.field 47 32
  rset s .thm (rThmSensn n) (BitVec.ofNat 64 (unsignedOf 16 fc * 2 ^ 48 + rd * 2 ^ 32 + unsignedOf 16 gov * 2 ^ 16 +
    (if suspect then 8 else 0) + (if disagree then 4 else 0) + how))

/-- A sensor is marked SUSPECT (R419). -/
def logSuspect (n : Nat) (s : State) : State := logEvent (srcSensor n) .sensorSuspect n s

/-- How a pair is governed: by its own readings, or by forecast + 10 °C. -/
def governPair (s : State) (h : Nat) (fc : Int) (ra rb : Option Int) (sa sb : Bool) : Option Int :=
  let ia := implausible s h fc ra
  let ib := implausible s h fc rb
  if sa && sb then none
  else if sa then (if ib then none else rb)
  else if sb then (if ia then none else ra)
  else if ia && ib then none
  else match ra, rb with
    | some x, some y => some (max x y)
    | some x, none => some x
    | none, y => y

/-- The round at one tile hot spot (R418, R419). -/
def roundPair (r : Round) (h : Nat) (s : State) : Spot × State :=
  let a := 2 * h
  let b := a + 1
  let ra := readingOf r s a
  let rb := readingOf r s b
  let fc := forecastOf r s a
  let sa := (rg s .thm (rThmSensn a)).bit 3
  let sb := (rg s .thm (rThmSensn b)).bit 3
  let differ := match ra, rb with | some x, some y => decide (16 < (x - y).natAbs) | _, _ => false
  let n := if differ && !sa && !sb then SMap.get 0 s.therm.disagree h + 1 else 0
  let far (x : Option Int) : Nat := match x with | some x => (offEstimate s h fc x).natAbs | none => 0
  let third := n == 3
  let badB := decide (far ra < far rb)
  let sa' := sa || (third && !badB)
  let sb' := sb || (third && badB)
  let g := governPair s h fc ra rb sa' sb'
  let was := rf s .thm (rThmSensn a) 1 0
  let s := { s with therm := { s.therm with disagree := if n = 0 then SMap.drop h s.therm.disagree else SMap.put h n s.therm.disagree } }
  let s := if third then
      logSuspect (if badB then b else a) (logEvent (srcSensor (if badB then a else b)) .sensorDisagree (if badB then b else a) s)
    else s
  match g with
  | none =>
    let s := if was = 2 then s else logEvent (srcSensor a) .sensorForecast a s
    (⟨a, fc, fc + 40⟩, setSens b fc (fc + 40) rb sb' differ 2 (setSens a fc (fc + 40) ra sa' differ 2 s))
  | some v =>
    let how (x : Option Int) : Nat := if x = some v then 0 else 1
    (⟨a, fc, v⟩, setSens b fc v rb sb' differ (how rb) (setSens a fc v ra sa' differ (how ra) s))

/-- The round at a single sensor (R419). -/
def roundSingle (r : Round) (n : Nat) (s : State) : Spot × State :=
  let x := readingOf r s n
  let fc := forecastOf r s n
  let old := (rg s .thm (rThmSensn n)).bit 3
  let bad := match x with | none => true | some x => outOfBand x
  let s := if bad && !old then logSuspect n s else s
  match old || bad, x with
  | false, some v => (⟨n, fc, v⟩, setSens n fc v x false false 0 s)
  | _, _ => (⟨n, fc, fc + 40⟩, setSens n fc (fc + 40) x true false 2 s)

/-- The single sensors of this device: the guest site's on a DH7-512G only. -/
def singles : List Nat := (List.range (if Config.variantG then 264 else 256)).map (1088 + ·)

/-- Every spot of the device. -/
def roundSpots (r : Round) (s : State) : List Spot × State :=
  let x := (List.range 544).foldl (init := (([] : List Spot), s)) fun x h =>
    let (p, s) := roundPair r h x.2
    (p :: x.1, s)
  let y := singles.foldl (init := x) fun x n =>
    let (p, s) := roundSingle r n x.2
    (p :: x.1, s)
  (y.1.reverse, y.2)

/-- A logic spot (R421). -/
def Spot.logic (p : Spot) : Bool := decide (p.n < 1088 ∨ (1216 ≤ p.n ∧ p.n < 1280))
/-- A memory spot (R421). -/
def Spot.memory (p : Spot) : Bool := decide ((1088 ≤ p.n ∧ p.n < 1216) ∨ (1280 ≤ p.n ∧ p.n < 1344))

/-- The spot with the highest value, the first of equals. -/
def topSpot (f : Spot → Int) : List Spot → Option Spot
  | [] => none
  | p :: r =>
    match topSpot f r with
    | some q => if f p < f q then some q else some p
    | none => some p

/-- Quarter degrees shown in whole °C, rounded up. -/
def degrees (x : Int) : Nat := ((x + 3) / 4).toNat

/-- THM_STATE follows the highest reading and forecast. -/
def showTops (ps : List Spot) (s : State) : State :=
  match topSpot (·.gov) ps, topSpot (·.fc) ps with
  | some g, some f =>
    let s := rput (rput s .thm rThmState 47 32 f.n) .thm rThmState 31 24 (min 255 (degrees f.fc))
    rput (rput s .thm rThmState 23 16 (min 255 (degrees g.gov))) .thm rThmState 15 0 g.n
  | _, _ => s

/-- Governing readings of the sensors that a test admits, the highest in °C. -/
def hotOf (ps : List Spot) (f : Nat → Bool) : Nat := degrees ((topSpot (·.gov) (ps.filter fun p => f p.n)).map (·.gov) |>.getD 0)

/-- The cluster of a DRAM-layer sensor (Table PWR-5). -/
def dramCluster (n : Nat) : Nat := (n - 1088) / 64 * 16 + (n - 1088) % 16

/-- The governing reading of a cluster, and the mode that it forces (R201 to R203). -/
def roundCluster (ps : List Spot) (s : State) (r : Nat) : State :=
  let temp := hotOf ps fun n => decide (1088 ≤ n ∧ n < 1216) && dramCluster n == r
  let s := (List.range 17).foldl (fun s j => rput s (.tile (r * 17 + j)) rTileSlState 39 32 (min 255 temp)) s
  let ref := builtMode s r
  if ref = 0 then s
  else
    let cool := if temp + 3 ≤ modeLimit ref then SMap.get 0 s.therm.refCool r + 1 else 0
    let s := { s with therm := { s.therm with refCool := SMap.put r cool s.therm.refCool } }
    let mode := rf s (.tile (r * 17)) rTileSlState 11 8
    match partOfCluster s r with
    | some p => if mode < modeFor temp then forceMode p r (modeFor temp) ref s else s
    | none => s

/-- The next lower refresh rate of a stack. -/
def lowerRate (m : Nat) : Nat := if m = 4 then 2 else 1

/-- A stack's refresh rate follows its highest base-die reading (R421). -/
def roundStack (ps : List Spot) (s : State) (k : Nat) : State :=
  let temp := hotOf ps fun n => decide (1280 + 8 * k ≤ n ∧ n < 1288 + 8 * k)
  let s := rput s (.memc k) rMemcState 23 16 (min 255 temp)
  let m := rf s (.memc k) rMemcState 11 8
  let need := modeFor temp
  if m < need then (rput s (.memc k) rMemcState 11 8 need).setStack k { s.stack k with coolRounds := 0 }
  else if m = 1 then s
  else
    let cool := if temp + 3 ≤ modeLimit (lowerRate m) then (s.stack k).coolRounds + 1 else 0
    if cool = 20 then (rput s (.memc k) rMemcState 11 8 (lowerRate m)).setStack k { s.stack k with coolRounds := 0 }
    else s.setStack k { s.stack k with coolRounds := cool }

/-- Whether every logic spot passes a test. -/
def logicAll (ps : List Spot) (f : Spot → Bool) : Bool := (ps.filter Spot.logic).all f

/-- Slow requests, their grace and their end (R421, R422). -/
def roundSlow (ps : List Spot) (s : State) : State :=
  let kind := rf s .thm rThmSlow 7 6
  let lvl := rf s .thm rThmSlow 2 0
  let s := match s.therm.graceEnd with
    | some _ => rput s .thm rThmSlow 31 16 (rf s .thm rThmSlow 31 16 - 1)
    | none => s
  let dram := ps.find? fun p =>
    decide (1088 ≤ p.n ∧ p.n < 1216) &&
      (let ref := builtMode s (dramCluster p.n); ref != 0 && decide (4 * (modeLimit ref : Int) < p.fc))
  let top := topSpot (·.fc) (ps.filter Spot.logic)
  let f := (top.map (·.fc)).getD 0
  let fn := (top.map (·.n)).getD 0
  let want := min 7 (1 + (f - 400).toNat / 8)
  if 400 ≤ f ∧ (kind ≠ 1 ∨ lvl < want) then slowRequest 1 want (srcSensor fn) f s
  else
    match lvl, dram with
    | 0, some p => slowRequest 2 1 (srcSensor p.n) p.fc s
    | 0, none =>
      if 40 < rf s .thm rThmCoolant 23 16 && !(rg s .thm rThmCoolant).bit 62 then slowRequest 3 1 (srcSensor 1352) f s else s
    | _, _ =>
      let calm := if logicAll ps fun p => decide (p.fc < 388) then s.therm.reqCalm + 1 else 0
      let s := { s with therm := { s.therm with reqCalm := calm } }
      if calm = 20 then
        rput (rput (rput { s with therm := { s.therm with graceEnd := none } } .thm rThmSlow 7 6 0) .thm rThmSlow 2 0 0)
          .thm rThmSlow 31 16 0
      else s

/-- Enforced skipping by readings (R421, R423). -/
def roundEnforce (ps : List Spot) (s : State) : State :=
  let hot := ps.any fun p => (p.logic && decide (420 ≤ p.gov)) || (p.memory && decide (420 < p.gov))
  let cool := logicAll ps fun p => decide (p.fc < 392 ∧ p.gov < 412)
  if hot then
    if s.therm.thermNext = 0 then enforce s
    else
      let n := s.therm.hotRounds + 1
      { s with therm := { s.therm with coolRounds := 0, hotRounds := n % 10
                                       thermNext := if n % 10 = 0 then min 7 (s.therm.thermNext + 1) else s.therm.thermNext } }
  else if s.therm.thermNext = 0 then s
  else
    let n := if cool then s.therm.coolRounds + 1 else 0
    { s with therm := { s.therm with hotRounds := 0, coolRounds := n % 50
                                     thermNext := if n = 50 then s.therm.thermNext - 1 else s.therm.thermNext } }

/-- Division by readings, and its undoing (R405, R424). -/
def roundDivide (ps : List Spot) (s : State) : State :=
  let log (d : Nat) (s : State) : State :=
    if d ≤ divNow s then s else logEvent (srcSensor (rf s .thm rThmState 15 0)) .thermClockdiv d s
  let any (x : Int) : Bool := ps.any fun p => p.logic && decide (x ≤ p.gov)
  if any 464 then divideTo 2 (log 2 { s with therm := { s.therm with divCool := 0 } })
  else if any 448 then
    if divNow s = 0 then divideTo 1 (log 1 s)
    else
      let n := s.therm.divHot + 1
      let s := { s with therm := { s.therm with divHot := n, divCool := 0 } }
      if divNow s = 1 ∧ n = 5 then divideTo 2 (log 2 s) else s
  else
    let cool := logicAll ps fun p => decide (p.gov < 432)
    let n := if cool then s.therm.divCool + 1 else 0
    let s := { s with therm := { s.therm with divHot := 0, divCool := n } }
    if divNow s ≠ 0 ∧ 50 ≤ n ∧ s.therm.undoDiv = none ∧ !(rg s .thm rThmState).bit 55 then
      requestSet 0 (vcoreAt (divNow s - 1)) { s with therm := { s.therm with undoDiv := some false, divCool := 0 } }
    else s

/-- The latched shutdown (R425). -/
def shutDown (cause : Nat) (p : Spot) (x : Int) (s : State) : State :=
  let s := rput (rput s .thm rThmState 63 63 1) .thm rThmState 62 60 cause
  let s := logEvent (srcSensor p.n) .thermShutdown (cause + 2 ^ 16 * unsignedOf 16 x) s
  let s := [7, 0, 3, 2].foldl (fun s r => if railState s r = 0 then s else disableRail r s) s
  let s := (List.range 48).foldl (fun s l => if linkState s l = linkDOWN then s else stopLink l linkDOWN .linkFault s) s
  rput { s with therm := { s.therm with stopped := true } } .clk rClkPll 63 32 0

/-- Shutdown by readings, or by a forecast while COOLSTOP is set (R421, R425, R429). -/
def roundShutdown (ps : List Spot) (s : State) : State :=
  let cool := (rg s .thm rThmState).bit 55
  match ps.find? fun p => p.logic && decide (480 ≤ p.gov) with
  | some p => shutDown 1 p p.gov s
  | none =>
    match ps.find? fun p => p.memory && decide (440 ≤ p.gov) with
    | some p => shutDown 2 p p.gov s
    | none =>
      match ps.find? fun p => cool && ((p.logic && decide (480 ≤ p.fc)) || (p.memory && decide (440 ≤ p.fc))) with
      | some p => shutDown 3 p p.fc s
      | none => s

/-- The guest site (R426). -/
def roundGuest (ps : List Spot) (s : State) : State :=
  if !s.therm.guestHot && ps.any fun p => decide (1344 ≤ p.n) && decide ((Config.gtlim : Int) ≤ p.gov) then
    disableRail 7 { holdGuest s with therm := { s.therm with guestHot := true } }
  else s

/-- The coolant inputs of the round (R427, R463). -/
def roundCoolant (r : Round) (s : State) : State :=
  if (rg s .thm rThmCoolant).bit 63 then s
  else
    match r.inlet, r.flow with
    | some t, some f =>
      let s := rput (rput s .thm rThmCoolant 47 32 f) .thm rThmCoolant 23 16 (min 255 (t / 16).toNat)
      let s := if f < rf s .thm rThmCoolant 11 0 then s else rput s .thm rThmCoolant 61 61 0
      { rput s .thm rThmCoolant 62 62 0 with therm := { s.therm with silentI3c := 0, flowKnown := true } }
    | t, f =>
      let s := match t with | some t => rput s .thm rThmCoolant 23 16 (min 255 (t / 16).toNat) | none => s
      let s := match f with | some f => rput s .thm rThmCoolant 47 32 f | none => s
      let n := s.therm.silentI3c + 1
      let s := { s with therm := { s.therm with silentI3c := n, flowKnown := s.therm.flowKnown || f.isSome } }
      if n = 3 then staleCoolant s else s

/-- COOLSTOP in a round (R429): a flow below FLOWZERO, or eight sensors that rise by more than 2 °C in the round; it clears
after 1 s of flow with no fast rise. -/
def roundFlow (rise : Nat) (s : State) : State :=
  let low := s.therm.flowKnown && decide (rf s .thm rThmCoolant 47 32 < rf s .thm rThmCoolant 11 0)
  if 8 ≤ rise then coolStop 2 s
  else if low then coolStop 0 s
  else
    let n := s.therm.flowOk + 1
    let s := { s with therm := { s.therm with flowOk := min 1000 n } }
    if n = 1000 then rput s .thm rThmState 55 55 0 else s

/-- The power model (R412, R413). -/
def roundPower (r : Round) (s : State) : State :=
  let ps := (r.power :: s.therm.powers).take 1000
  let sum10 := (ps.take 10).foldl (· + ·) 0
  let sum1 := ps.foldl (· + ·) 0
  let s := rput (rput s .clk rPwrStat 63 48 (min 65535 (sum10 / 10))) .clk rPwrStat 47 32 (min 65535 (sum1 / 1000))
  let s := rsat s .clk rPwrStat 31 24 r.planExceeded
  let l10 := rf s .clk rPwrLimit 39 28
  let l1 := rf s .clk rPwrLimit 27 16
  let excess := decide (l10 * 10 < sum10 ∨ l1 * 1000 < sum1)
  let calm := decide (sum10 * 100 < l10 * 10 * 95 ∧ sum1 * 100 < l1 * 1000 * 95)
  let n := if calm then s.therm.powerCalm + 1 else 0
  { s with therm := { s.therm with powers := ps, powerOver := excess, powerCalm := n % 100
                                   powerDrop := if n = 100 ∧ 0 < s.therm.powerLvl then s.therm.powerDrop + 1 else s.therm.powerDrop } }

/-- The sensors that have risen by more than 2 °C since the last round, of tiles and DRAM layers. -/
def fastRises (r : Round) (s : State) : Nat :=
  r.sensors.countP fun x =>
    decide (x.1.val < 1216) && s.therm.lastReads.has x.1.val &&
      (match x.2 with | some v => decide (8 < v - SMap.get 0 s.therm.lastReads x.1.val) | none => false)

/-- HOUSEKEEPING_ROUND (R417 to R430). After a shutdown only the saddle is watched (R425). -/
def execHousekeepingRound (r : Round) (s : State) : Host.Outcome State Fault Refusal :=
  let rise := fastRises r s
  let reads := r.sensors.foldl (fun m x => match x.2 with | some v => SMap.put x.1.val v m | none => m) s.therm.lastReads
  let s := roundCoolant r { s with therm := { s.therm with lastReads := reads } }
  let (ps, s) := roundSpots r s
  let s := showTops ps s
  let s := r.rails.foldl (fun s x => rput s .clk (rPwrRailr x.1) 47 32 (x.2 % 65536)) s
  if s.therm.stopped then
    if ps.any fun p => decide (1216 ≤ p.n ∧ p.n < 1280 ∧ 480 ≤ p.gov) then
      .next ([4, 1, 5].foldl (fun s x => if railState s x = 0 then s else disableRail x s) (rput s .thm rThmState 62 60 4))
    else .next s
  else
    let s := (List.range 32).foldl (roundCluster ps) s
    let s := (List.range 8).foldl (roundStack ps) s
    let s := roundFlow rise s
    let s := roundSlow ps s
    let s := roundEnforce ps s
    let s := roundDivide ps s
    let s := roundPower r s
    .next (roundShutdown ps (roundGuest ps s))

end Sys2Proof.Machine
end

