-- ==== Sys2Proof/Machine/Epoch.lean ====
section
/-! DEFINITION. Epoch marks: numbering, steering, slips, levels and holds of cycle skipping, refresh modes, pauses,
held runs, returning ridge modules (R184, R185, R188 to R192, R201, R309, R340, R409, R413, R415, R423, R424). -/
namespace Sys2Proof.Machine

/-- The number of the epoch whose due time lies nearest, counted from E0 (R189, R309). -/
def markNumber (e0 : Word) (s : State) : Nat :=
  (((((s.time.t / 65536 : Nat) : Int) - 3 * (e0.toNat : Int) + 8192) / 16384) % ((2 ^ 64 : Nat) : Int)).toNat
/-- How far device time lies past the due time of epoch `n`, E0 + n × 16,384/3 ns, in thirds of 2^-16 ns (R189). -/
def pastDue (n : Nat) (s : State) : Int :=
  let m : Int := (196608 * 2 ^ 64 : Nat)
  let x := ((s.time.t : Int) - (rg s .time rTimeE0).toNat * 196608 - n * 2 ^ 30) % m
  if x < m / 2 then x else x - m

/-- The mark's number (R188, R309): a changed E0 applies from this mark. -/
def numberMark (s : State) : State :=
  match s.time.newE0 with
  | some e =>
    rset (rset { s with time := { s.time with newE0 := none } } .time rTimeE0 e) .time rTimeEpochnum
      (BitVec.ofNat 64 (markNumber e s))
  | none => rset s .time rTimeEpochnum (BitVec.ofNat 64 (epochNum s + 1))

/-- A RUN held for this mark's epoch takes effect (R192): step 0 starts at the mark. -/
def heldRun (p : Nat) (s : State) : State :=
  let w := rg s (.part p) rPartRunepoch
  if w.bit 62 ∧ w.field 61 0 ≤ epochNum s then
    let s := rput s (.part p) rPartRunepoch 62 62 0
    if trvState s p = trvLOADED then beginRun p s.markCyc s else s
  else s

/-! Levels. -/

/-- Enforcement that begins is logged (R413, R415): `cause` 2 power, 3 supply. -/
def logEnforced (cause before after : Nat) (s : State) : State :=
  if before = 0 ∧ after ≠ 0 then
    logEvent (srcSensor (rf s .thm rThmState 15 0)) .thermEnforced (after + 16 * cause) s
  else s

/-- The levels of skipping from this mark on (R409, R413, R423). -/
def turnLevels (s : State) : State :=
  let t := s.therm
  let excess := decide (t.supplyNext ≠ 0) && t.low.isEmpty && t.warned.isEmpty && decide (t.calmFrom + cycPerMs ≤ s.cyc)
  let sup := if excess then 0 else t.supplyNext
  let pow := (if t.powerOver then min 7 (t.powerLvl + 1) else t.powerLvl) - t.powerDrop
  let s := logEnforced 3 t.supplyLvl sup (logEnforced 2 t.powerLvl pow s)
  let s := { s with therm := { s.therm with
    thermLvl := t.thermNext, powerLvl := pow, powerDrop := 0, supplyLvl := sup, supplyNext := sup } }
  rput (rput s .thm rThmState 54 52 t.thermNext) .clk rClkState 9 7 (skipLevel s)

/-- One step of division is undone (R405, R424). -/
def undoDivision (s : State) : State :=
  if s.therm.undoDiv = some true ∧ divNow s ≠ 0 ∧ (rg s .thm rThmState).bit 55 = false then
    renewSlots { rput s .clk rClkState 11 10 (divNow s - 1) with therm := { s.therm with undoDiv := none } }
  else s

/-- The hold of a skip level: the clocks stand for the hold's length while device time goes on, and the slice controllers
take their slots in it (R415). -/
def holdClocks (s : State) : State :=
  let n := skipLevel s * 1024
  if n = 0 then s
  else
    let s := { s with time := s.timeAfter n }
    (List.range 544).foldl (init := s) fun s h =>
      let z := 8192 / max 1 (rf s (.tile h) rTileSlState 20 16)
      s.updTile h fun y => { y with held := (y.held + n) % z, refreshRow := (y.refreshRow + (y.held + n) / z) % 4128 }

/-- THROTTLE while either form is in force (R415). -/
def markThrottle (s : State) : State := if skipLevel s = 0 ∧ divNow s = 0 then s else breakAll 3 s

/-! Pauses. -/

/-- PART_PAUSE follows the partition. -/
def showPause (p : Nat) (s : State) : State :=
  let x := s.part p
  rset s (.part p) rPartPause (BitVec.ofNat 64
    (x.paused.foldl (fun n r => n ||| 2 ^ (32 + r)) 0 + (if x.stoppedAt.isSome then 1 else 0)))

/-- Clusters whose diagnoses and repairs are over resume (R185). -/
def markResume (p : Nat) (s : State) : State :=
  let x := s.part p
  if x.resume.isEmpty then s
  else
    let left := x.paused.filter fun r => !x.resume.contains r
    let y := { x with paused := left, resume := [] }
    let y := match left, x.stoppedAt with
      | [], some c => { y with stoppedAt := none, stopped := y.stopped + (s.markCyc - c) }
      | _, _ => y
    showPause p (s.setPart p y)

/-- Clusters with a cause pause (R184); the diagnoses that they pause for start (R68). -/
def markPause (p : Nat) (s : State) : State :=
  let x := s.part p
  if x.pauseCause.isEmpty then s
  else
    let new := x.pauseCause.filter fun r => !x.paused.contains r
    let s := s.setPart p { x with
      paused := new ++ x.paused, pauseCause := []
      stoppedAt := match x.stoppedAt with | some c => some c | none => some s.markCyc }
    let s := showPause p s
    let s := x.pauseCause.foldl (init := s) fun s r => (List.range 17).foldl (init := s) fun s c =>
      if (s.tile (r * 17 + c)).diagWanted then startDiagnosis (r * 17 + c) s else s
    if new.isEmpty then s else reportBreakRunning p 9 0xF 0xFFFF (srcPart p) s

/-! Offset and steering. -/

/-- Thirds of 2^-16 ns as FCLK cycles at 1.5 GHz, 131,072 each, rounded down, or up where `up` says so (log entry 63). -/
def wholeCycles (d : Int) (up : Bool) : Int := d / 131072 + if up && d % 131072 != 0 then 1 else 0

/-- The mark that falls 8,192 cycles after the last one, and its offset in FCLK cycles (R188, R189). While no partition of the
device is RUNNING the mark falls on its due time instead, and is numbered by it (R191, R309, log entry 63). -/
def reachMark (up : Bool) (s : State) : Int × State :=
  let run := anyRunning s
  let t := numberMark (s.upTo (s.markCyc + 8192))
  let t := if run then t else rset t .time rTimeEpochnum (BitVec.ofNat 64 (markNumber (rg t .time rTimeE0) t))
  let o := wholeCycles (pastDue (epochNum t) t) up
  if run then (o, { t with markCyc := s.markCyc + 8192 })
  else
    let m := ((s.markCyc + 8192 : Nat) - o).toNat
    (0, { t with cyc := max s.cyc m, time := s.timeAfter (m - s.cyc), markCyc := m })

/-- STEER: toward zero offset by an amount that the spec bounds by 200 ppm and otherwise leaves open (log entry 2); while a
throttle is in force, only toward a lower FCLK (R189). -/
def steerFor (ofs : Int) (s : State) : Int × State :=
  let (k, s) := s.draw
  let a : Int := (k % 20001 : Nat)
  if ofs < 0 then (-a, s)
  else if ofs = 0 ∨ skipLevel s ≠ 0 ∨ divNow s ≠ 0 then (0, s)
  else (a, s)

/-- The offset of the mark and what follows from it (R189, R191). -/
def markOffset (ofs : Int) (s : State) : State :=
  let was := signedOf 32 (rf s .time rTimeEpochofs 31 0)
  let (st, s) := steerFor ofs s
  let (o, s) := fitSigned 32 ofs s
  let s := rset s .time rTimeEpochofs (BitVec.ofNat 64 (unsignedOf 16 st * 2 ^ 32 + o))
  if 8 < ofs.natAbs ∨ 8 < was.natAbs then
    (List.range 32).foldl (fun s p => reportBreakRunning p 7 0xF 0xFFFF srcTime s) s
  else s

/-- EPOCH_MARK (R188): 8,192 FCLK cycles after the last one. -/
def execEpochMark (up : Bool) (s : State) : Host.Outcome State Fault Refusal :=
  if !s.bup.vglow || s.therm.stopped then .next s
  else
    let (offset, s) := reachMark up s
    let ps := List.range 32
    let s := ps.foldl (fun s p => markPause p (markResume p (heldRun p s))) s
    let s := (List.range 32).foldl (fun s r => modeAtMark r s) s
    let s := holdClocks (undoDivision (turnLevels s))
    let s := (List.range 128).foldl (fun s m => returnModule m s) s
    .next (markOffset offset (markThrottle s))

end Sys2Proof.Machine
end

