-- ==== Sys2Proof/Machine/Security.lean ====
section
/-! DEFINITION. Attestation, IDE and the debug port's lock (R438 to R445). -/
namespace Sys2Proof.Machine

/-! SPDM over DOE. -/

/-- An answer of a port's SPDM responder (R439): its bytes are free (log entry 2). -/
def spdmAnswer (port : Bool) (s : State) : State := { s with free := s.free + 1 }.send (.spdm port (Config.spdmAnswer s.free))

/-- A new session of a port, where it has fewer than two (R439). -/
def openSession (port : Bool) (s : State) : State :=
  let p := s.portOf port
  match [0, 1].find? fun k => !(p.sessions.any fun e => e.1 == k) with
  | some k => s.setPort port { p with sessions := (k, false) :: p.sessions }
  | none => s

/-- SPDM_REQUEST (R439). -/
def execSpdmRequest (port : Bool) (r : SpdmRequest) (s : State) : Host.Outcome State Fault Refusal :=
  let p := s.portOf port
  if !p.up then .next s
  else
    match r with
    | .pskExchange | .mutualAuth | .setCertificate | .getCsr | .encapsulated | .other => .next (s.send (.spdmUnsupported port))
    | .keyExchange => .next (spdmAnswer port (openSession port s))
    | .finish k =>
      .next (spdmAnswer port (s.setPort port { p with
        sessions := p.sessions.map fun e => if e.1 = k then (k, true) else e }))
    | .endSession k => .next (spdmAnswer port (s.setPort port { p with sessions := p.sessions.filter fun e => e.1 != k }))
    | .discovery | .getVersion | .getCapabilities | .negotiateAlgorithms | .getDigests | .chunk => .next (spdmAnswer port s)
    | .getCertificate _ | .challenge _ | .heartbeat _ | .keyUpdate _ => .next (spdmAnswer port s)

/-- SEC_FWDIGEST. -/
def shownDigest (s : State) : List Byte := (List.range 6).flatMap fun i => bytesOf 8 (rg s .sec (rSecFwdigesti i)).toNat
/-- D2D_FID2 (R342). -/
def fid2 : Nat :=
  (if posOk then 2 ^ 63 else 0) + Config.gvnom.toNat * 2 ^ 40 + Config.positions.field 31 8 * 2 ^ 8 +
    Config.positions.field 1 0
/-- The debug port's level. -/
def debugLevel (s : State) : Nat := rf s .sec rSecDbgctrl 3 2

/-- A measurement block, formed as it is read (Table SEC-4). -/
def measurement (s : State) (index : Nat) : Option (List Byte) :=
  match index with
  | 1 => some (bytesOf 48 Config.romDigest.toNat)
  | 2 => some (shownDigest s)
  | 3 =>
    let bs := ((List.range 4).flatMap fun k => bytesOf 48 (Config.keyHash k).toNat) ++ bytesOf 1 (keyRev s).toNat ++
      bytesOf 8 (2 ^ minSvn s - 1) ++ bytesOf 48 Config.dbgKeyHash.toNat ++ bytesOf 8 fid0 ++
      bytesOf 8 Config.serial.toNat ++ bytesOf 8 fid2
    some (bytesOf 48 (Config.sha384 bs).toNat)
  | 4 =>
    some (bytesOf 1 (debugLevel s) ++ bytesOf 1 (if hostate s = hoPROBATION then 1 else 0) ++
      bytesOf 1 (rf s .sec rSecFwstat 11 10) ++ bytesOf 1 (rf s .sec rSecFwstat 39 32) ++ bytesOf 4 0)
  | 5 => some (match s.sec.waiting with | some f => bytesOf 48 f.digest.toNat | none => bytesOf 48 0)
  | 6 => some Config.cairnCert
  | _ => none

/-- GET_MEASUREMENTS (R440): one block, or all of them; other indexes are answered with bytes that are free. -/
def execGetMeasurements (port : Bool) (index : Nat) (s : State) : Host.Outcome State Fault Refusal :=
  if !(s.portOf port).up then .next s
  else if index = 0xFF then .next (s.send (.spdm port ((List.range 6).flatMap fun i => (measurement s (i + 1)).getD [])))
  else
    match measurement s index with
    | some bs => .next (s.send (.spdm port bs))
    | none => .next (spdmAnswer port s)

/-! IDE. -/

/-- Whether a session of a port is established. -/
def sessionOpen (s : State) (port : Bool) (k : Nat) : Bool := (s.portOf port).up && (s.portOf port).sessions.contains (k, true)

/-- QUERY (R441). -/
def execIdeQuery (port : Bool) (session : Nat) (s : State) : Host.Outcome State Fault Refusal :=
  .next (if sessionOpen s port session then spdmAnswer port s else s)

/-- Whether a key set names a stream of the port (R441). -/
def setKnown (x : IdeSet) : Bool := decide (x.stream ≤ 4) && decide (x.sub ≤ 2)
/-- The key set that a key belongs to. -/
def keySetOf (x : IdeKey) : IdeSet := ⟨x.stream, x.keySet, x.tx, x.sub⟩

/-- KEY_PROG (R441): the key goes into the port's IDE hardware. -/
def execKeyProg (port : Bool) (session : Nat) (x : IdeKey) (s : State) : Host.Outcome State Fault Refusal :=
  if !sessionOpen s port session then .next s
  else
    let p := s.portOf port
    let s := if setKnown (keySetOf x) then
        s.setPort port { p with ideKeys := x :: p.ideKeys.filter fun k => keySetOf k != keySetOf x }
      else s
    .next (spdmAnswer port s)

/-- Whether every direction and sub-stream of a stream uses one key set. -/
def streamSecure (p : Port) (stream : Nat) : Bool :=
  [false, true].any fun k => [false, true].all fun tx => [0, 1, 2].all fun n => p.ideSecure.contains ⟨stream, k, tx, n⟩

/-- K_SET_GO (R441, R442): a key set comes into use; a stream whose sets are all in use is established again, and what
its port held goes out (R312). -/
def execKSetGo (port : Bool) (session : Nat) (x : IdeSet) (s : State) : Host.Outcome State Fault Refusal :=
  if !sessionOpen s port session then .next s
  else
    let p := s.portOf port
    if setKnown x && p.ideKeys.any fun k => keySetOf k == x then
      let p := { p with ideSecure := x :: p.ideSecure.filter (· != x) }
      if streamSecure p x.stream && p.ideBroken.contains x.stream then
        let s := s.setPort port { p with ideBroken := p.ideBroken.filter (· != x.stream) }
        .next (spdmAnswer port (if portUp s port then sendPending port (writeHeld port s) else s))
      else .next (spdmAnswer port (s.setPort port p))
    else .next (spdmAnswer port s)

/-- K_SET_STOP (R441). -/
def execKSetStop (port : Bool) (session : Nat) (x : IdeSet) (s : State) : Host.Outcome State Fault Refusal :=
  if !sessionOpen s port session then .next s
  else
    let p := s.portOf port
    .next (spdmAnswer port (s.setPort port { p with ideSecure := p.ideSecure.filter (· != x) }))

/-- IDE_INTEGRITY (R442): the stream is Insecure, and its keys are no longer used. -/
def execIdeIntegrity (port : Bool) (stream : Nat) (s : State) : Host.Outcome State Fault Refusal :=
  let p := s.portOf port
  if !p.up || !streamSecure p stream then .next s
  else
    let s := s.setPort port { p with
      ideSecure := p.ideSecure.filter fun x => x.stream != stream
      ideKeys := p.ideKeys.filter fun x => x.stream != stream
      ideBroken := stream :: p.ideBroken.filter (· != stream) }
    .next (raisePF0 6 (logEvent srcSec .ideIntegrity 0 s))

/-! The debug port. -/

/-- IDCODE (R443). -/
def execIdcode (s : State) : Host.Outcome State Fault Refusal :=
  .next (s.send (.debug (bytesOf 4 Config.idcode.toNat)))

/-- BYPASS (R443). -/
def execBypass (s : State) : Host.Outcome State Fault Refusal := .next s

/-- Bits in bytes, first bit lowest. -/
def bitsToBytes (bs : List Bool) : List Byte :=
  bytesOf ((bs.length + 7) / 8) (bs.foldr (fun b n => 2 * n + (if b then 1 else 0)) 0)

/-- SAMPLE_PRELOAD (R443). -/
def execSamplePreload (pins : List Bool) (s : State) : Host.Outcome State Fault Refusal :=
  .next ({ s with sec := { s.sec with boundary := pins } }.send (.debug (bitsToBytes pins)))

/-- EXTEST (R443): the boundary register drives the lands; after step 3 it acts as BYPASS. -/
def execExtest (s : State) : Host.Outcome State Fault Refusal :=
  if bupStep s ≤ 3 then .next (s.send (.lands s.sec.boundary)) else .next s

/-- The 128 bytes of a challenge (R444). -/
def challengeBytes (nonce : BitVec 384) (level : Nat) : List Byte :=
  bytesOf 48 nonce.toNat ++ bytesOf 8 Config.serial.toNat ++ bytesOf 8 fid0 ++ bytesOf 64 level

/-- CHALLENGE (R444): a fresh nonce, which is free (log entry 2). -/
def execChallenge (level : Nat) (s : State) : Host.Outcome State Fault Refusal :=
  if s.sec.lockedAt.isSome || !(level == 1 || level == 2) then .next s
  else
    let (n, s) := s.draw
    let nonce := BitVec.ofNat 384 n
    .next ({ s with sec := { s.sec with nonce := some (nonce, level) } }.send (.debug (challengeBytes nonce level)))

/-- Whether an unlock succeeds (R444). -/
def unlockOk (s : State) (nonce : BitVec 384) (level : Nat) (key signature : List Byte) : Bool :=
  (rg s .sec rSecDbgctrl).bit 0 && Config.dbgKeyHash != 0 && Config.sha384 key == Config.dbgKeyHash &&
    Config.ecdsaVerify key (challengeBytes nonce level) signature

/-- A failed unlock (R444): after three, CHALLENGE is refused. -/
def denyUnlock (s : State) : State :=
  let n := s.sec.failures + 1
  let s := { s with sec := { s.sec with
    failures := n, lockedAt := if n = 3 then some s.cyc else s.sec.lockedAt } }
  logEvent srcDebug .debugDenied 0 (rsat s .sec rSecDbgctrl 31 16 1)

/-- UNLOCK (R444). -/
def execUnlock (key signature : List Byte) (s : State) : Host.Outcome State Fault Refusal :=
  let t := { s with sec := { s.sec with nonce := none } }
  match s.sec.nonce with
  | none => .next (denyUnlock t)
  | some (nonce, level) =>
    if unlockOk s nonce level key signature then
      .next (raisePF0 6 (logEvent srcDebug .debugUnlocked 0 (rput t .sec rSecDbgctrl 3 2 level)))
    else .next (denyUnlock t)

/-- CHALLENGE_LOCKOUT_END (R444). -/
def execChallengeLockoutEnd (s : State) : Host.Outcome State Fault Refusal :=
  match s.sec.lockedAt with
  | none => .next s
  | some c =>
    let s := s.upTo (c + 60 * cycPerS)
    .next { s with sec := { s.sec with lockedAt := none, failures := 0 } }

/-- The port is locked (R445); what it held runs on. -/
def lockDebug (s : State) : State :=
  rput { s with sec := { s.sec with debugHeld := [] } } .sec rSecDbgctrl 3 2 0

/-- A write of SEC_DBGCTRL (R445). -/
def wrSecDbgctrl (a : Acc) (v : Word) (s : State) : State :=
  hostWrite a .sec rSecDbgctrl dSecDbgctrl .steward v noCheck
    (fun x s => if x.v.bit 63 || !x.new.bit 0 then lockDebug s else s) s

/-- DEBUG_RELOCK (R445): a write with RELOCK, or one that clears ALLOW. -/
def execDebugRelock (a : Acc) (v : Word) (s : State) : Host.Outcome State Fault Refusal := .next (wrSecDbgctrl a v s)

end Sys2Proof.Machine
end

