-- ==== Sys2Proof/Machine/RegAccess.lean ====
section
/-! DEFINITION. Registers at raw BAR0 offsets: where they lie (Tables HIF-2 and HIF-3), writes in the order of R474, what a
read returns; accesses through the unlocked debug port (R473, R474, R314 to R318, R445). -/
namespace Sys2Proof.Machine

/-! Where a register lies. -/

/-- The block, and the offset in it, at an offset of a port's PF0 BAR0 (Table HIF-2); the other port's HIF registers lie
from 0x80000 on (R314). -/
def pf0Place (port : Bool) (o : Nat) : Option (Blk × Nat) :=
  if o < 0x80000 then some (.hif port, o)
  else if o < 0x100000 then some (.hif !port, o - 0x80000)
  else if o < 0x200000 then some (.bup, o - 0x100000)
  else if o < 0x300000 then some (.rst, o - 0x200000)
  else if o < 0x400000 then some (.clk, o - 0x300000)
  else if o < 0x500000 then some (.thm, o - 0x400000)
  else if o < 0x600000 then some (.ras, o - 0x500000)
  else if o < 0x700000 then some (.sec, o - 0x600000)
  else if o < 0x800000 then some (.crn, o - 0x700000)
  else if o < 0x900000 then some (.d2d, o - 0x800000)
  else if o < 0xA00000 then some (.gst, o - 0x900000)
  else if o < 0xB00000 then some (.memc ((o - 0xA00000) / 0x20000), o % 0x20000)
  else if o < 0xC00000 then none
  else if o < 0xE00000 then some (.grt ((o - 0xC00000) / 0x80000), o % 0x80000)
  else if o < 0x1000000 then some (.fab, o - 0xE00000)
  else if o < 0x1100000 then some (.time, o - 0x1000000)
  else if o < 0x1200000 then some (.part ((o - 0x1100000) / 0x8000), o % 0x8000)
  else if o < 0x1400000 then some (.kvp ((o - 0x1200000) / 0x10000), o % 0x10000)
  else if o < 0x1840000 then some (.tile ((o - 0x1400000) / 0x2000), o % 0x2000)
  else if o < 0x1C00000 then none
  else if o < 0x2000000 then some (.hvc ((o - 0x1C00000) / 0x10000), o % 0x10000)
  else none

/-- The `j`-th group of a partition (R318). -/
def vfGroup (s : State) (p j : Nat) : Option Nat :=
  ((List.range 64).filter fun g => (rgEff s (.part p) rPartHvcg).bit g)[j]?

/-- The block and offset at an offset of the BAR0 of the VF that serves partition `p` (Table HIF-3). -/
def vfPlace (s : State) (p o : Nat) : Option (Blk × Nat) :=
  if o < 0x1000 then some (.part p, o)
  else if o < 0x2000 then some (.kvp p, o - 0x1000)
  else if o < 0x2020 then some (.fab, rFabAdmitpw p 0 + (o - 0x2000))
  else if 0x8000 ≤ o ∧ o < 0xC000 then (vfGroup s p ((o - 0x8000) / 0x800)).map fun g => (.hvc g, (o - 0x8000) % 0x800)
  else none

/-- Whether R473 allows an access of that width at that offset. -/
def accessOk (bits o : Nat) : Bool := (bits == 32 && o % 4 == 0) || (bits == 64 && o % 8 == 0)

/-! Writes. -/

/-- The functions that a block admits where its registers name no other. -/
def blockAdmit (s : State) : Blk → Admit
  | .hif port => .self port
  | .ras => .anyPF0
  | .part p | .kvp p => .ownerVf p
  | .tile h => .owner (partOfCluster s (clusterOfPhys h))
  | .hvc g => match partOfGroup s g with | some p => .ownerVf p | none => .owner none
  | _ => .steward

/-- A write of a register with no rules beyond its fields. -/
def wrPlain (a : Acc) (b : Blk) (o : Nat) (v : Word) (s : State) : State :=
  match regDesc b o with
  | some d => hostWrite a b o d (blockAdmit s b) v noCheck noAct s
  | none => rejectWrite a b .outOfRange s

/-- A write of an ERRCODE register of a page. -/
def wrPageErr (a : Acc) (b : Blk) (o : Nat) (v : Word) (s : State) : State :=
  match regDesc b o with
  | some d => hostWrite a b o d (blockAdmit s b) v noCheck (clearErr b o) s
  | none => rejectWrite a b .outOfRange s

/-- The index of an offset in an array of `n` registers from `base`, `stride` bytes apart. -/
def indexAt (o base stride n : Nat) : Option Nat :=
  if base ≤ o ∧ o < base + stride * n ∧ (o - base) % stride = 0 then some ((o - base) / stride) else none

/-- A write in a HIF view. -/
def wrHif (a : Acc) (o : Nat) (v : Word) (s : State) : State :=
  if o = rHifErrcode then wrHifErrcode a v s
  else if o = rHifSteward then wrHifSteward a v s
  else if o = rHifStewcfg then wrHifStewcfg a v s
  else if o = rHifHbeat then wrHifHbeat a v s
  else if o = rHifBar2base then wrHifBar2base a v s
  else if o = rHifVecen then wrHifVecen a v s
  else if o = rHifPcommit then wrHifPcommit a v s
  else wrPlain a (.hif a.port) o v s

/-- A write in the BUP block. -/
def wrBup (a : Acc) (o : Nat) (v : Word) (s : State) : State :=
  if o = rBupErrcode then wrBupErrcode a v s
  else if o = rBupCtrl then wrBupCtrl a v s
  else if o = rBupFwpage then wrBupFwpage a v s
  else if o = rBupTrrec then wrBupTrrec a v s
  else wrPlain a .bup o v s

/-- A write in the RST block. -/
def wrRst (a : Acc) (o : Nat) (v : Word) (s : State) : State :=
  if o = rRstErrcode then wrRstErrcode a v s
  else if o = rRstReq then wrRstReq a v s
  else wrPlain a .rst o v s

/-- A write in the CLK and PWR block. -/
def wrClk (a : Acc) (o : Nat) (v : Word) (s : State) : State :=
  if o = rPwrErrcode then wrPwrErrcode a v s
  else if o = rClkPll then wrClkPll a v s
  else if o = rPwrLimit then wrPwrLimit a v s
  else wrPlain a .clk o v s

/-- A write in the THM block. -/
def wrThm (a : Acc) (o : Nat) (v : Word) (s : State) : State :=
  if o = rThmErrcode then wrThmErrcode a v s
  else if o = rThmSlow then wrThmSlow a v s
  else if o = rThmCoolant then wrThmCoolant a v s
  else if 0x10000 ≤ o then wrThmSens a ((o - 0x10000) / 8) v s
  else wrPlain a .thm o v s

/-- A write in the RAS block. -/
def wrRas (a : Acc) (o : Nat) (v : Word) (s : State) : State :=
  if o = rRasErrcode then wrRasErrcode a v s
  else if o = rLogRdseq then wrLogRdseq a v s
  else if o = rLogCtrl then wrLogCtrl a v s
  else if o = rLogDma then wrLogDma a v s
  else if o = rRasScctrl then wrRasScctrl a v s
  else wrPlain a .ras o v s

/-- A write in the SEC block. -/
def wrSec (a : Acc) (o : Nat) (v : Word) (s : State) : State :=
  if o = rSecErrcode then wrSecErrcode a v s
  else if o = rSecHoaddr then wrSecHoaddr a v s
  else if o = rSecHoctrl then wrSecHoctrl a v s
  else if o = rSecFusectrl then wrSecFusectrl a v s
  else if o = rSecDbgctrl then wrSecDbgctrl a v s
  else wrPlain a .sec o v s

/-- A write in the D2D block. -/
def wrD2d (a : Acc) (o : Nat) (v : Word) (s : State) : State :=
  if o = rD2dErrcode then wrD2dErrcode a v s
  else
    match indexAt o (rD2dModctrlm 0) 0x10 128 with
    | some m => wrD2dModctrl a m v s
    | none => wrPlain a .d2d o v s

/-- A write in the GST block. -/
def wrGst (a : Acc) (o : Nat) (v : Word) (s : State) : State :=
  if o = rGstErrcode then wrGstErrcode a v s
  else if o = rGstCtrl then wrGstCtrl a v s
  else if o = rGstCommit then wrGstCommit a v s
  else if o = rGstPolicy then wrGstPolicy a v s
  else
    match indexAt o (rGstWinw 0) 8 32, indexAt o (rGstCntrr 0) 8 32 with
    | some w, _ => if (regDesc .gst (rGstWinw w)).isSome then wrGstWin a w v s else wrPlain a .gst o v s
    | _, some r => if (regDesc .gst (rGstCntrr r)).isSome then wrGstCntr a r v s else wrPlain a .gst o v s
    | _, _ => wrPlain a .gst o v s

/-- A write in a stack's MEMC block. -/
def wrMemc (a : Acc) (k o : Nat) (v : Word) (s : State) : State :=
  if o = rMemcErrcode then wrPageErr a (.memc k) o v s
  else if o = rMemcDripcfg then wrDripcfg a (.memc (Fin.ofNat 8 k)) v s
  else if o = rMemcScrub then wrMemcScrub a k v s
  else if o = rMemcBankret then wrMemcBankret a k v s
  else if o = rMemcInjaddr then wrMemcInjaddr a k v s
  else if o = rMemcInjmask then wrMemcInjmask a k v s
  else if o = rMemcMargctrl then wrMemcMargctrl a k v s
  else
    match indexAt o (rMemcDripc 0) 8 32, indexAt o (rMemcRanger 0) 8 64 with
    | some c, _ => wrMemcDrip a (Fin.ofNat 8 k) (Fin.ofNat 32 c) v s
    | _, some r => wrMemcRange a k r v s
    | _, _ =>
      if 0x10000 ≤ o then wrMemcReg a k ((o - 0x10000) / 0x100) (o % 0x100 / 8) v s
      else wrPlain a (.memc k) o v s

/-- A write in a grotto stack's block. -/
def wrGrt (a : Acc) (g o : Nat) (v : Word) (s : State) : State :=
  if o = rGrtErrcode then wrGrtErrcode a g v s
  else if o = rGrtMode then wrGrtMode a g v s
  else if o = rGrtDripcfg then wrDripcfg a (.grt (Fin.ofNat 4 g)) v s
  else
    match indexAt o (rGrtOwnk 0) 8 128, indexAt o (rGrtCctrlk 0) 0x80 128, indexAt o (rGrtCdripk 0) 0x80 128 with
    | some k, _, _ => wrGrtOwn a (128 * g + k) v s
    | _, some k, _ => wrGrtCctrl a (128 * g + k) v s
    | _, _, some k => wrGrtCdrip a (Fin.ofNat 512 (128 * g + k)) v s
    | _, _, _ => wrPlain a (.grt g) o v s

/-- A write of FAB_ADMITp_w, which belongs to the partition. -/
def wrFabAdmit (a : Acc) (p w : Nat) (v : Word) (s : State) : State :=
  hostWrite a .fab (rFabAdmitpw p w) dFabAdmitpw (.ownerVf p) v noCheck noAct s

/-- A write in the FAB block. -/
def wrFab (a : Acc) (o : Nat) (v : Word) (s : State) : State :=
  if o = rFabErrcode then wrFabErrcode a v s
  else if o = rFabDevid then wrFabDevid a v s
  else if o = rFabFaillast then wrFabFaillast a v s
  else if 0x2000 ≤ o ∧ o < 0x2800 then wrFabAdmit a ((o - 0x2000) / 0x40) (o % 0x40 / 8) v s
  else if 0x10000 ≤ o then wrFabFwd a ((o - 0x10000) / 8) v s
  else
    match indexAt o (rFabLinkctrll 0) 0x40 48 with
    | some l => wrFabLinkctrl a l v s
    | none => wrPlain a .fab o v s

/-- A write in the TIME block. -/
def wrTime (a : Acc) (o : Nat) (v : Word) (s : State) : State :=
  if o = rTimeCtrl then wrTimeCtrl a v s
  else if o = rTimePtmofs then wrTimePtmofs a v s
  else if o = rTimeE0 then wrTimeE0 a v s
  else if o = rTimeSet then wrTimeSet a v s
  else if o = rTimePpsctrl then wrTimePpsctrl a v s
  else if o = rTimePpsinfrac then wrTimePpsinfrac a v s
  else wrPlain a .time o v s

/-- A write of PART_WITHHOLD: writing 1 to VALID clears VALID, STEP and CODE. -/
def wrPartWithhold (a : Acc) (p : Nat) (v : Word) (s : State) : State :=
  hostWrite a (.part p) rPartWithhold dPartWithhold (.ownerVf p) v noCheck (clearErr (.part p) rPartWithhold) s

/-- A write in a partition's PART page. -/
def wrPart (a : Acc) (p o : Nat) (v : Word) (s : State) : State :=
  if o = rPartErrcode then wrPageErr a (.part p) o v s
  else if o = rPartWithhold then wrPartWithhold a p v s
  else if o = rPartTrvbase then wrPartTrvbase a p v s
  else if o = rPartTrvctrl then wrPartTrvctrl a p v s
  else if o = rPartRunepoch then wrPartRunepoch a p v s
  else if o = rPartCommit then wrPartCommit a p v s
  else if o = rPartComp then wrPartComp a p v s
  else if o = rPartHvcg then wrPartHvcg a p v s
  else if o = rPartReset then wrPartReset a (Fin.ofNat 32 p) v s
  else
    match indexAt o (rPartQcfgq 0) 0x20 16 with
    | some q => wrPartQcfg a p q v s
    | none => wrPlain a (.part p) o v s

/-- A write in a partition's KVP page. -/
def wrKvp (a : Acc) (p o : Nat) (v : Word) (s : State) : State :=
  if o = rKvpErrcode then wrPageErr a (.kvp p) o v s
  else if o = rKvpXltinv then wrKvpXltinv a p v s
  else
    match indexAt o (rKvpPoolcfgq 0) 0x20 8 with
    | some q => wrKvpPoolcfg a p q v s
    | none => wrPlain a (.kvp p) o v s

/-- A write in a TILE window. -/
def wrTile (a : Acc) (h o : Nat) (v : Word) (s : State) : State :=
  if o = rTileErrcode then wrTileErrcode a h v s
  else if o = rTileMxCtrl then wrTileMxCtrl a h v s
  else if o = rTileMxStatus then wrTileMxStatus a h v s
  else if o = rTileCtxCtrl then wrTileCtxCtrl a h v s
  else if o = rTileQCtrl then wrTileQCtrl a h v s
  else if o = rTileSlRowret then wrTileSlRowret a h v s
  else if o = rTileSlScrub then wrTileSlScrub a h v s
  else if o = rTileDrip then wrTileDrip a (Fin.ofNat 544 h) v s
  else if o = rTileDripcfg then wrDripcfg a (.tile (Fin.ofNat 544 h)) v s
  else if o = rTileInjaddr then wrTileInjaddr a h v s
  else if o = rTileInjmask then wrTileInjmask a h v s
  else wrPlain a (.tile h) o v s

/-- A write in a counter group's page. -/
def wrHvc (a : Acc) (g o : Nat) (v : Word) (s : State) : State :=
  if o = rHvcErrcode then wrPageErr a (.hvc g) o v s
  else
    match indexAt o (rHvcAdd 0) 0x20 64 with
    | some i => wrHvcAdd a g i v s
    | none => wrPlain a (.hvc g) o v s

/-- A write of the register at an offset of a block. -/
def writeReg (a : Acc) (b : Blk) (o : Nat) (v : Word) (s : State) : State :=
  match b with
  | .hif port => if port = a.port then wrHif a o v s else rejectWrite a (.hif a.port) .notOwner s
  | .bup => wrBup a o v s
  | .rst => wrRst a o v s
  | .clk => wrClk a o v s
  | .thm => wrThm a o v s
  | .ras => wrRas a o v s
  | .sec => wrSec a o v s
  | .crn => s
  | .d2d => wrD2d a o v s
  | .gst => wrGst a o v s
  | .memc k => wrMemc a k o v s
  | .grt g => wrGrt a g o v s
  | .fab => wrFab a o v s
  | .time => wrTime a o v s
  | .part p => wrPart a p o v s
  | .kvp p => wrKvp a p o v s
  | .tile h => wrTile a h o v s
  | .hvc g => wrHvc a g o v s

/-- The half of a register that an access names. -/
def halfAt (bits o : Nat) : Half := if bits = 64 then .full else if o % 8 = 0 then .low else .high

/-- Whether an offset lies in the firmware window (R359). -/
def inFwWindow (b : Blk) (o : Nat) : Bool := b == .bup && decide (0x80000 ≤ o)

/-- The block whose ERRCODE records a rejected access: the own HIF view for what lies in no block, and for the other port's
HIF registers. -/
def errBlock (x : RegAccess) (b : Option Blk) : Blk :=
  match b with
  | none | some (.hif _) => .hif x.port
  | some b => b

/-- A write at a raw offset in the order of R474. -/
def writeAt (x : RegAccess) (place : Option (Blk × Nat)) (v : Word) (s : State) : State :=
  let a : Acc := ⟨x.port, x.vf, halfAt x.bits x.off⟩
  let w := if a.half = .high then v <<< 32 else v
  let e : Blk := if x.vf.val = 0 then errBlock x (place.map (·.1)) else .part (x.vf.val - 1)
  if (place.map (·.1)) = some .crn then s
  else if !accessOk x.bits x.off then rejectWrite a e .illegalValue s
  else
    match place with
    | none => rejectWrite a e .outOfRange s
    | some (b, o) =>
      if inFwWindow b o then wrFwWindow a (o / 8 * 8 - 0x80000) w s
      else if (regDesc b (o / 8 * 8)).isNone then rejectWrite a e .outOfRange s
      else writeReg a b (o / 8 * 8) w s

/-- REGISTER_WRITE (R473, R474, R314 to R318). -/
def execRegisterWrite (x : RegAccess) (v : Word) (s : State) : Host.Outcome State Fault Refusal :=
  if x.vf.val = 0 then .next (writeAt x (pf0Place x.port x.off) v s)
  else .next (writeAt x (vfPlace s (x.vf.val - 1) x.off) v s)

/-! Reads. -/

/-- The bits of a register that a read shows: neither reserved, write-only nor self-clearing ones. -/
def readBits (d : RegDesc) : Word :=
  d.fields.foldl (init := 0) fun m f =>
    match f.acc with
    | .res | .wo | .sc => m
    | _ => m ||| Word.mask f.hi f.lo

/-- Code of a context or core state. -/
def ctxStateNo : CtxState → Nat
  | .idle => 0 | .ready => 1 | .wait => 2 | .halted => 3
/-- STATE of a grotto core. -/
def grtStateNo : GrtState → Nat
  | .idle => 0 | .ready => 1 | .wait => 2 | .paused => 3 | .halted => 4
/-- WAITON. -/
def waitNo : Waiting → Nat
  | .none => 0 | .counter _ _ _ _ => 1 | .slot _ _ => 2 | .bank _ _ => 3

/-- TILE_CTX_CSWn as it reads. -/
def cswWord (c : Ctx) : Nat :=
  (if c.st = .halted then c.code.toNat else 0) * 2 ^ 48 + (if c.st = .wait then waitNo c.wait else 0) * 2 ^ 36 +
    ctxStateNo c.st * 2 ^ 32 + c.pc % 2 ^ 32

/-- Whether core `c` of a tile roosts (R80). -/
def coreRoosts (t : Tile) (c : Nat) : Bool := !(t.ctx.any fun e => e.1 / 4 == c && e.2.stirs)

/-- TILE_ROOST as it reads. -/
def roostWord (s : State) (h : Nat) : Nat :=
  let t := s.tile h
  let x := SMap.get {} s.roost h
  let n := x.cycles + (if x.awake then 0 else s.cyc - max x.since s.resetAt)
  min (2 ^ 32 - 1) (n / 1024) * 2 ^ 32 + min (2 ^ 24 - 1) x.wakes * 2 ^ 8 + (if t.roosts then 4 else 0) +
    (if coreRoosts t 1 then 2 else 0) + (if coreRoosts t 0 then 1 else 0)

/-- A set of indexes below 64, as bits. -/
def bitSet (l : List Nat) (base : Nat) : Nat :=
  (List.range 64).foldl (fun n i => if l.contains (base + i) then n + 2 ^ i else n) 0

/-- What is not kept as it reads, of a TILE window. -/
def viewTile (s : State) (h o : Nat) : Option Nat :=
  let t := s.tile h
  if o = rTileRoost then some (roostWord s h)
  else if o = rTileCntSat0 then some (if (logOf s h).isSome then bitSet t.sat 0 else 0)
  else if o = rTileCntSat1 then some (if (logOf s h).isSome then bitSet t.sat 64 else 0)
  else if o = rTileMxKatage then t.kat.map fun c => min (2 ^ 32 - 1) ((s.cyc - c) / 1500)
  else
    match indexAt o (rTileCtxCswn 0) 8 8, indexAt o (rTileQStateq 0) 8 3, indexAt o (rTileCntValn 0) 8 128 with
    | some n, _, _ => some (cswWord (t.ctxOf n))
    | _, some q, _ => some (queueWord s ((logOf s h).getD 0) (t.qOf q))
    | _, _, some n => some (if (logOf s h).isSome then (SMap.get 0 t.cnt n).toNat else 0)
    | _, _, _ => none

/-- What is not kept as it reads, of a grotto stack's block. -/
def viewGrt (s : State) (g o : Nat) : Option Nat :=
  if o = rGrtState then some (((rg s (.grt g) rGrtState).put 15 8 (activeCores s g)).put 47 32 (2928 / max 1 (rf s (.memc (4 + g)) rMemcState 11 8))).toNat
  else if o < 0x1000 then none
  else
    let k := (o - 0x1000) / 0x80
    let c := s.grotto (128 * g + k)
    let x := o % 0x80
    if x = 0 then
      some ((if c.st = .halted then c.code.toNat else 0) * 2 ^ 48 + bitSet c.sat 0 % 256 * 2 ^ 40 + min 8 c.owed * 2 ^ 36 +
        grtStateNo c.st * 2 ^ 33 + (if c.img.isSome then 2 ^ 32 else 0) + c.pc % 2 ^ 16)
    else if x = 0x10 then some c.launches.toNat
    else if 0x40 ≤ x then some (SMap.get 0 c.cnt ((x - 0x40) / 8)).toNat
    else none

/-- What is not kept as it reads, of a counter group's page. -/
def viewHvc (s : State) (g o : Nat) : Option Nat :=
  if o = rHvcOwner then
    match partOfGroup s g with
    | some p => some (2 ^ 8 + (if partPort s p then 2 ^ 5 else 0) + p)
    | none => some (if stewardPort s then 2 ^ 5 else 0)
  else
    match indexAt o (rHvcVal 0) 0x20 64, indexAt o (rHvcFlag 0) 0x20 64 with
    | some i, _ => some (hvValue s (g * 64 + i))
    | _, some i => some (if s.hvSat.contains (g * 64 + i) then 1 else 0)
    | _, _ => none

/-- HIF_STEWARD as it reads. -/
def stewardWord (s : State) : Nat :=
  let x := s.steward
  let n := (stewcfg s).field 47 32
  (if x.claim = 1 then n - (s.cyc - x.fenceFrom) / cycPerMs else 0) * 2 ^ 32 + x.claim % 4 * 2 ^ 5 +
    (if x.lapsed then 16 else 0) + (if x.strap then 2 else 0) + (if x.port then 1 else 0)

/-- What is not kept as it reads. -/
def viewReg (s : State) (b : Blk) (o : Nat) : Option Nat :=
  match b with
  | .tile h => viewTile s h o
  | .grt g => viewGrt s g o
  | .hvc g => viewHvc s g o
  | .hif port =>
    if o = rHifSteward then some (stewardWord s)
    else if o = rHifHbeat then some (s.sec.scBeat * 2 ^ 32 + rf s (.hif port) rHifHbeat 31 0)
    else none
  | .part p => (indexAt o (rPartQstatq 0) 0x20 16).map fun q => (queueStat s p q).toNat
  | .kvp p =>
    (indexAt o (rKvpPoolstatq 0) 0x20 8).map fun q =>
      ((rg s (.kvp p) o).put 31 0 (min (2 ^ 32 - 1) (poolAvail s p q))).toNat
  | .d2d =>
    if o = rD2dFid0 then some fid0
    else if o = rD2dFid1 then some Config.serial.toNat
    else if o = rD2dFid2 then some fid2
    else (indexAt o (rD2dRfusem 0) 8 128).map fun m => (Config.ridgeFuse m).toNat
  | .sec =>
    if o = rSecFusectrl then some ((rg s .sec o).toNat % 2 ^ 32 / 128 * 128 + (keyRev s).toNat * 2 ^ 32 + minSvn s) else none
  | .time => if o = rTimeNow then some s.nowNs else none
  | .ras =>
    if o = rRasScstat then some ((rg s .ras o).put 3 2 (min 3 (recentRestarts s).length)).toNat
    else if 0x10000 ≤ o ∧ o < 0x20000 then
      some (natOfBytes ((slotBytes s ((o - 0x10000) / 32)).drop (o % 32) |>.take 8))
    else none
  | _ => none

/-- The fused fields that say where a unit lies: PIDX, PEAK, ROW and PCOL of TILE_ID (R17), GROTTO and STACK of
MEMC_STATE. -/
def fusedBits (b : Blk) (o : Nat) : Nat :=
  match b with
  | .tile h =>
    if o = rTileId then h % 1024 * 2 ^ 22 + (if h < 272 then 0 else 2 ^ 16) + h % 272 / 17 * 2 ^ 12 + h % 17 else 0
  | .memc k => if o = rMemcState then (if k < 4 then 0 else 8) + k % 4 else 0
  | _ => 0

/-- A register as it reads; TILE windows read their reset values until step 9 is over (R358). -/
def readReg (s : State) (b : Blk) (o : Nat) : Word :=
  match regDesc b o with
  | none => 0
  | some d =>
    let w := match b with
      | .tile _ => if bupPast s 9 then rg s b o else regReset b o
      | _ => rg s b o
    let w := match viewReg s b o, b with
      | some _, .tile _ => if bupPast s 9 then BitVec.ofNat 64 ((viewReg s b o).getD 0) else w
      | some n, _ => BitVec.ofNat 64 n
      | none, _ => w
    (w ||| BitVec.ofNat 64 (fusedBits b o)) &&& readBits d

/-- A read of image RAM through the firmware window, which reads as zero while it is closed (R359). -/
def readFwWindow (s : State) (o : Nat) : Word :=
  if fwWindowOpen s then BitVec.ofNat 64 (s.bup.imageRam.readNat (fwWindowAt s (o / 8 * 8)) 8) else 0

/-- A read of `bits` bits at a raw offset whose block and place are given: zero where the width or the alignment is not allowed
(R473) or no register lies there; a 32-bit read returns its half (R11). -/
def readAt (s : State) (bits off : Nat) (place : Option (Blk × Nat)) : Word :=
  if !accessOk bits off then 0
  else
    match place with
    | none => 0
    | some (b, o) =>
      let w := if inFwWindow b o then readFwWindow s (o - 0x80000) else readReg s b (o / 8 * 8)
      if bits = 64 then w else if halfAt bits off = .high then w >>> 32 else w &&& Word.mask 31 0

/-! The debug port. -/

/-- The stack, its address and the bytes that an access to device memory reaches; neither the guest die nor a host's memory
(R445). -/
def debugPlace (addr : Nat) : Option (Nat × Nat) :=
  match placeOf addr with
  | .stack k x => some (k, x)
  | _ => none

/-- What a read of device memory through the debug port gives: nothing from the first piece on that cannot be read. -/
def debugRead : List (Nat × Nat) → State → List Byte × State
  | [], s => ([], s)
  | (a, n) :: r, s =>
    match debugPlace a with
    | none => ([], s)
    | some (k, x) =>
      match memRead (.stack k) x n none (ordinaryAccess none k x n s) with
      | (.uncorrected _, s) => ([], s)
      | (.data bs, s) =>
        let (rest, s) := debugRead r s
        (bs ++ rest, s)

/-- An access that only level 2 allows. -/
def fullAccess (x : DebugAccess) (s : State) : State :=
  match x with
  | .haltSaddle => { s with sec := { s.sec with debugHeld := SMap.put 0 0 s.sec.debugHeld } }
  | .stepSaddle =>
    if s.sec.debugHeld.has 0 then
      { s with sec := { s.sec with debugHeld := SMap.put 0 (SMap.get 0 s.sec.debugHeld 0 + 1) s.sec.debugHeld } }
    else s
  | .haltCore t c =>
    { s with sec := { s.sec with debugHeld := SMap.put (debugKey t (if c then 4 else 0)) 0 s.sec.debugHeld } }
  | .stepCore t c =>
    let k := debugKey t (if c then 4 else 0)
    if s.sec.debugHeld.has k then
      { s with sec := { s.sec with debugHeld := SMap.put k (SMap.get 0 s.sec.debugHeld k + 1) s.sec.debugHeld } }
    else s
  | .readMemory a len => let (bs, s) := debugRead (pieces a len) s; s.send (.debug bs)
  | .writeMemory a bs =>
    (pieces a bs.length).foldl (init := s) fun s x =>
      match debugPlace x.1 with
      | some (k, y) =>
        memWrite none (.stack k) y ((bs.drop (x.1 - a)).take x.2) (ordinaryAccess none k y x.2 s)
      | none => s
  | .readRegister _ _ | .readTrace => s

/-- DEBUG_PORT_ACCESS (R445): what a trace buffer holds is free (log entry 2). -/
def execDebugPortAccess (x : DebugAccess) (s : State) : Host.Outcome State Fault Refusal :=
  match debugLevel s, x with
  | 0, _ => .next s
  | _, .readRegister o bits =>
    .next (s.send (.debug (bytesOf (bits / 8) (readAt s bits o (pf0Place (stewardPort s) o)).toNat)))
  | _, .readTrace =>
    let (n, s) := s.draw
    .next (s.send (.debug (bytesOf 64 n)))
  | 2, _ => .next (fullAccess x s)
  | _, _ => .next s

end Sys2Proof.Machine
end

