-- ==== Sys2Proof/Machine/Scalar.lean ====
section
/-! DEFINITION. Scalar operations, branches and jumps (R119, R120, Tables ALR-3 and ALR-4, R159). -/
namespace Sys2Proof.Machine

/-- A two-operand scalar operation: `op` of the width and the values of g[ra] and g[rb] goes to g[rd] (R119). -/
def scalarOp (i : Instr) (u : Agent) (f : FmtA) (op : Nat → Nat → Nat → Nat) (s : State) : Host.Outcome State Fault Refusal :=
  issue i u s [(badG u f.rd || badG u f.ra || badG u f.rb, .illegalValue)] fun s =>
    .go (setG u f.rd (op (gWidth u) (getG u s f.ra) (getG u s f.rb)) s)

/-- A one-operand scalar operation; the rb field must be 0 (Table ALR-3). -/
def scalarOp1 (i : Instr) (u : Agent) (f : FmtA) (op : Nat → Nat → Nat) (s : State) : Host.Outcome State Fault Refusal :=
  issue i u s [(f.rb != 0, .reservedBitSet), (badG u f.rd || badG u f.ra, .illegalValue)] fun s =>
    .go (setG u f.rd (op (gWidth u) (getG u s f.ra)) s)

/-- An immediate operation (Table ALR-4). -/
def scalarImm (i : Instr) (u : Agent) (f : FmtI) (op : Nat → Nat → BitVec 16 → Nat) (s : State) : Host.Outcome State Fault Refusal :=
  issue i u s [(badG u f.rd || badG u f.ra, .illegalValue)] fun s =>
    .go (setG u f.rd (op (gWidth u) (getG u s f.ra) f.imm) s)

/-- Leading zero bits of a `w`-bit number. -/
def leadingZeros (w a : Nat) : Nat := if a = 0 then w else w - 1 - Nat.log2 a

/-- One bits of a `w`-bit number. -/
def oneBits (w a : Nat) : Nat := (List.range w).countP fun i => a.testBit i

/-- Shift of kind `k` (0 left, 1 right logical, 2 right arithmetic) by `n` modulo the width. -/
def shiftBy (w k a n : Nat) : Nat :=
  if k = 0 then (a <<< (n % w)) % 2 ^ w
  else if k = 1 then a >>> (n % w)
  else unsignedOf w (signedOf w a / 2 ^ (n % w))

/-- ADD: g[rd] is the wrapping sum (R119). -/
def execAdd (u : Agent) (f : FmtA) (s : State) : Host.Outcome State Fault Refusal :=
  scalarOp (.add u f) u f (fun w a b => (a + b) % 2 ^ w) s

/-- SUB: g[rd] is the wrapping difference (R119). -/
def execSub (u : Agent) (f : FmtA) (s : State) : Host.Outcome State Fault Refusal :=
  scalarOp (.sub u f) u f (fun w a b => (a + 2 ^ w - b) % 2 ^ w) s

/-- AND: g[rd] is bitwise and (R119). -/
def execAnd (u : Agent) (f : FmtA) (s : State) : Host.Outcome State Fault Refusal :=
  scalarOp (.and u f) u f (fun _ a b => a &&& b) s

/-- OR: g[rd] is bitwise or (R119). -/
def execOr (u : Agent) (f : FmtA) (s : State) : Host.Outcome State Fault Refusal :=
  scalarOp (.or u f) u f (fun _ a b => a ||| b) s

/-- XOR: g[rd] is bitwise exclusive or (R119). -/
def execXor (u : Agent) (f : FmtA) (s : State) : Host.Outcome State Fault Refusal :=
  scalarOp (.xor u f) u f (fun _ a b => a ^^^ b) s

/-- SLL: g[rd] is shift left logical by the low bits of g[rb] (R119). -/
def execSll (u : Agent) (f : FmtA) (s : State) : Host.Outcome State Fault Refusal :=
  scalarOp (.sll u f) u f (fun w a b => (a <<< (b % w)) % 2 ^ w) s

/-- SRL: g[rd] is shift right logical (R119). -/
def execSrl (u : Agent) (f : FmtA) (s : State) : Host.Outcome State Fault Refusal :=
  scalarOp (.srl u f) u f (fun w a b => a >>> (b % w)) s

/-- SRA: g[rd] is shift right arithmetic (R119). -/
def execSra (u : Agent) (f : FmtA) (s : State) : Host.Outcome State Fault Refusal :=
  scalarOp (.sra u f) u f (fun w a b => unsignedOf w (signedOf w a / 2 ^ (b % w))) s

/-- MIN: g[rd] is signed minimum (R119). -/
def execMin (u : Agent) (f : FmtA) (s : State) : Host.Outcome State Fault Refusal :=
  scalarOp (.min u f) u f (fun w a b => if signedOf w a ≤ signedOf w b then a else b) s

/-- MINU: g[rd] is unsigned minimum (R119). -/
def execMinu (u : Agent) (f : FmtA) (s : State) : Host.Outcome State Fault Refusal :=
  scalarOp (.minu u f) u f (fun _ a b => min a b) s

/-- MAX: g[rd] is signed maximum (R119). -/
def execMax (u : Agent) (f : FmtA) (s : State) : Host.Outcome State Fault Refusal :=
  scalarOp (.max u f) u f (fun w a b => if signedOf w a ≤ signedOf w b then b else a) s

/-- MAXU: g[rd] is unsigned maximum (R119). -/
def execMaxu (u : Agent) (f : FmtA) (s : State) : Host.Outcome State Fault Refusal :=
  scalarOp (.maxu u f) u f (fun _ a b => max a b) s

/-- CMPEQ: g[rd] is 1 if equal (R119). -/
def execCmpeq (u : Agent) (f : FmtA) (s : State) : Host.Outcome State Fault Refusal :=
  scalarOp (.cmpeq u f) u f (fun _ a b => if a = b then 1 else 0) s

/-- CMPLT: g[rd] is 1 if signed less than (R119). -/
def execCmplt (u : Agent) (f : FmtA) (s : State) : Host.Outcome State Fault Refusal :=
  scalarOp (.cmplt u f) u f (fun w a b => if signedOf w a < signedOf w b then 1 else 0) s

/-- CMPLTU: g[rd] is 1 if unsigned less than (R119). -/
def execCmpltu (u : Agent) (f : FmtA) (s : State) : Host.Outcome State Fault Refusal :=
  scalarOp (.cmpltu u f) u f (fun _ a b => if a < b then 1 else 0) s

/-- MUL: g[rd] is the low half of the product (R119). -/
def execMul (u : Agent) (f : FmtA) (s : State) : Host.Outcome State Fault Refusal :=
  scalarOp (.mul u f) u f (fun w a b => a * b % 2 ^ w) s

/-- MULH: g[rd] is the high half of the signed product (R119). -/
def execMulh (u : Agent) (f : FmtA) (s : State) : Host.Outcome State Fault Refusal :=
  scalarOp (.mulh u f) u f (fun w a b => unsignedOf w (signedOf w a * signedOf w b / 2 ^ w)) s

/-- MULHU: g[rd] is the high half of the unsigned product (R119). -/
def execMulhu (u : Agent) (f : FmtA) (s : State) : Host.Outcome State Fault Refusal :=
  scalarOp (.mulhu u f) u f (fun w a b => a * b / 2 ^ w) s

/-- CLZ: leading zero bits of g[ra], the width for zero (R119). -/
def execClz (u : Agent) (f : FmtA) (s : State) : Host.Outcome State Fault Refusal :=
  scalarOp1 (.clz u f) u f leadingZeros s

/-- POPC: one bits of g[ra] (R119). -/
def execPopc (u : Agent) (f : FmtA) (s : State) : Host.Outcome State Fault Refusal :=
  scalarOp1 (.popc u f) u f oneBits s

/-- ADDI: g[ra] plus the sign-extended immediate (R119). -/
def execAddi (u : Agent) (f : FmtI) (s : State) : Host.Outcome State Fault Refusal :=
  scalarImm (.addi u f) u f (fun w a i => (a + unsignedOf w i.toInt) % 2 ^ w) s

/-- ANDI: with the zero-extended immediate. -/
def execAndi (u : Agent) (f : FmtI) (s : State) : Host.Outcome State Fault Refusal :=
  scalarImm (.andi u f) u f (fun _ a i => a &&& i.toNat) s

/-- ORI: with the zero-extended immediate. -/
def execOri (u : Agent) (f : FmtI) (s : State) : Host.Outcome State Fault Refusal :=
  scalarImm (.ori u f) u f (fun _ a i => a ||| i.toNat) s

/-- XORI: with the zero-extended immediate. -/
def execXori (u : Agent) (f : FmtI) (s : State) : Host.Outcome State Fault Refusal :=
  scalarImm (.xori u f) u f (fun _ a i => a ^^^ i.toNat) s

/-- SHI: IMM 15:8 is 0, IMM 7:6 the kind (3 is not accepted), IMM 5:0 the amount, modulo the width. -/
def execShi (u : Agent) (f : FmtI) (s : State) : Host.Outcome State Fault Refusal :=
  let i := f.imm.toNat
  issue (.shi u f) u s [(i / 256 != 0, .reservedBitSet), (bitsOf i 7 6 == 3 || badG u f.rd || badG u f.ra, .illegalValue)] fun s =>
    .go (setG u f.rd (shiftBy (gWidth u) (bitsOf i 7 6) (getG u s f.ra) (bitsOf i 5 0)) s)

/-- The half-word position of MOVZ and MOVK: ra bits 17:16 of the word, the low two bits of the field; a grotto
core accepts 0 and 1 (R159). -/
def movPos (f : FmtI) : Nat := f.ra.toNat % 4

/-- The checks of MOVZ and MOVK. -/
def movChecks (u : Agent) (f : FmtI) : List (Bool × Code) :=
  [(decide (3 < f.ra.toNat), .reservedBitSet), (badG u f.rd || (!isSpur u && decide (1 < movPos f)), .illegalValue)]

/-- MOVZ: IMM × 2^(16s). -/
def execMovz (u : Agent) (f : FmtI) (s : State) : Host.Outcome State Fault Refusal :=
  issue (.movz u f) u s (movChecks u f) fun s => .go (setG u f.rd (f.imm.toNat <<< (16 * movPos f)) s)

/-- MOVK: bits 16s + 15 : 16s of g[rd] are replaced. -/
def execMovk (u : Agent) (f : FmtI) (s : State) : Host.Outcome State Fault Refusal :=
  issue (.movk u f) u s (movChecks u f) fun s =>
    let old := getG u s f.rd
    let m := 16 * movPos f
    .go (setG u f.rd (old - bitsOf old (m + 15) m <<< m + f.imm.toNat <<< m) s)

/-- A conditional branch (R120): PC + 4 × sign-extended OFF where the comparison holds, else PC + 4. -/
def branchOn (i : Instr) (u : Agent) (f : FmtB) (holds : Nat → Nat → Nat → Bool) (s : State) : Host.Outcome State Fault Refusal :=
  issue i u s [(badG u f.ra || badG u f.rb, .illegalValue)] fun s =>
    if holds (gWidth u) (getG u s f.ra) (getG u s f.rb) then .jump ((pcOf u s : Int) + 4 * f.off.toInt) s
    else .go s

/-- BEQ: equal (R120). -/
def execBeq (u : Agent) (f : FmtB) (s : State) : Host.Outcome State Fault Refusal :=
  branchOn (.beq u f) u f (fun _ a b => decide (a = b)) s

/-- BNE: not equal (R120). -/
def execBne (u : Agent) (f : FmtB) (s : State) : Host.Outcome State Fault Refusal :=
  branchOn (.bne u f) u f (fun _ a b => decide (a ≠ b)) s

/-- BLT: signed less than (R120). -/
def execBlt (u : Agent) (f : FmtB) (s : State) : Host.Outcome State Fault Refusal :=
  branchOn (.blt u f) u f (fun w a b => decide (signedOf w a < signedOf w b)) s

/-- BGE: signed greater or equal (R120). -/
def execBge (u : Agent) (f : FmtB) (s : State) : Host.Outcome State Fault Refusal :=
  branchOn (.bge u f) u f (fun w a b => decide (signedOf w b ≤ signedOf w a)) s

/-- BLTU: unsigned less than (R120). -/
def execBltu (u : Agent) (f : FmtB) (s : State) : Host.Outcome State Fault Refusal :=
  branchOn (.bltu u f) u f (fun _ a b => decide (a < b)) s

/-- BGEU: unsigned greater or equal (R120). -/
def execBgeu (u : Agent) (f : FmtB) (s : State) : Host.Outcome State Fault Refusal :=
  branchOn (.bgeu u f) u f (fun _ a b => decide (b ≤ a)) s

/-- The register that JAL links in: g31, or g15 of a grotto core (R120, R159). -/
def linkReg (u : Agent) : BitVec 5 := if isSpur u then 31 else 15

/-- JAL: links PC + 4 and continues at PC + 4 × sign-extended OFF (R120). -/
def execJal (u : Agent) (f : FmtJ) (s : State) : Host.Outcome State Fault Refusal :=
  issue (.jal u f) u s [] fun s =>
    .jump ((pcOf u s : Int) + 4 * f.off.toInt) (setG u (linkReg u) (pcOf u s + 4) s)

/-- JALR: links PC + 4 in g[rd] and continues at g[ra] + 4 × sign-extended IMM, which must be a multiple of 4
(R120). -/
def execJalr (u : Agent) (f : FmtI) (s : State) : Host.Outcome State Fault Refusal :=
  issue (.jalr u f) u s [(badG u f.rd || badG u f.ra, .illegalValue)] fun s =>
    let target := pat u ((getG u s f.ra : Int) + 4 * f.imm.toInt)
    if target % 4 ≠ 0 then .halt .illegalValue
    else .jump target (setG u f.rd (pcOf u s + 4) s)

end Sys2Proof.Machine
end

