-- ==== Sys2Proof/Machine/Stacks.lean ====
section
/-! DEFINITION. Stack controllers: range checks, regulators and the service of requests (R209 to R217). -/
namespace Sys2Proof.Machine

/-- The stack whose storage an address names, with its place there. -/
def stackOf (a : Nat) : Option (Nat × Nat) :=
  match placeOf a with
  | .stack k x => some (k, x)
  | _ => none

/-- Whether an address of stack `k` lies in a fine-grain range. -/
def isFine (s : State) (k x : Nat) : Bool := match rangeAt s k x with | some (_, f) => f | none => false

/-- The cycle on which a request finds its charge in bucket C. -/
def admitAt (s : State) (k x : Nat) (r : StackReq) : Nat :=
  regReady s k r.part (channelOf k x) (unitCharge (isFine s k x))

/-- A request admitted by its regulator (R212, R214), or `none` where it waits: for its charge, or for a margin sweep to
end (R237). A guaranteed one from a tile has a fixed time. -/
def admitReq (s : State) (k x : Nat) (fine : Bool) (r : StackReq) : Option State :=
  let c := channelOf k x
  let q := unitCharge fine
  let b := regNow s k r.part c
  let st := s.stack k
  if b.c < q || margining s k then none
  else
    let unit := if fine then 32 else 128
    let behind := st.accesses.any fun y => !y.guaranteed && y.req.part == r.part &&
      (match stackOf y.req.addr with | some (j, z) => j == k && z / unit == x / unit | none => false)
    let full := decide (q ≤ b.g)
    let due := if full && !behind then r.tile.map fun t => s.cyc + stackLatency s k t else none
    let b' : Reg := ⟨if full then b.g - q else b.g, b.c - q, s.cyc⟩
    some (s.setStack k { st with regs := SMap.put (regKey r.part c) b' st.regs
                                 accesses := st.accesses ++ [⟨r, full && !behind, due⟩] })

/-- Whether a request waits behind one of `held`: of its partition and channel. -/
def behindHeld (k x : Nat) (r : StackReq) (held : List StackReq) : Bool :=
  held.any fun y => y.part == r.part &&
    (match stackOf y.addr with | some (_, z) => channelOf k z == channelOf k x | none => false)

/-- Waiting requests of a stack are tried in order; one that waits holds up later ones of its partition and
channel. -/
def retryWaiting (k : Nat) : List StackReq → List StackReq → State → State
  | [], held, s => s.setStack k { s.stack k with waitingReqs := held }
  | r :: rest, held, s =>
    match stackOf r.addr with
    | some (_, x) =>
      if behindHeld k x r held then retryWaiting k rest (held ++ [r]) s
      else
        match admitReq s k x (isFine s k x) r with
        | some s => retryWaiting k rest held s
        | none => retryWaiting k rest (held ++ [r]) s
    | none => retryWaiting k rest held s

/-- The first cycle from now on which a waiting request of stack `k` can be admitted, if it is not after cycle `c`. -/
def nextAdmission (s : State) (k c : Nat) : Option Nat :=
  ((s.stack k).waitingReqs.filterMap fun r =>
    match stackOf r.addr with
    | some (_, x) => some (admitAt s k x r)
    | none => none).foldl (init := none) fun m n =>
      if c < n then m else match m with | none => some n | some d => some (min d n)

/-- The waiting requests of a stack admitted as their charges become available up to cycle `c` (R212). -/
def serveUpTo (k c : Nat) : Nat → State → State
  | 0, s => s
  | n + 1, s =>
    match nextAdmission s k c with
    | none => s
    | some d =>
      let s := s.upTo d
      serveUpTo k c n (retryWaiting k (s.stack k).waitingReqs [] s)

/-- STACK_REQUEST (R209, R211, R212): a request outside the partition's ranges touches nothing and ends with OUT_OF_RANGE;
another is admitted or waits. -/
def execStackRequest (r : StackReq) (s : State) : Host.Outcome State Fault Refusal :=
  match stackOf r.addr with
  | none => .next (s.send (.stackReply r (some .outOfRange)))
  | some (k, x) =>
    match rangeAt s k x with
    | some (p, _) =>
      if p = r.part.val then .next (retryWaiting k ((s.stack k).waitingReqs ++ [r]) [] s)
      else .next (s.send (.stackReply r (some .outOfRange)))
    | none => .next (s.send (.stackReply r (some .outOfRange)))

/-- All accesses in service, stack by stack, with their places. -/
def allAccesses (s : State) : List (Nat × Nat × Access) :=
  (List.range 8).flatMap fun k => (s.stack k).accesses.zipIdx.map fun (x, j) => (k, j, x)

/-- The channel of an access. -/
def Access.channel (x : Access) (k : Nat) : Nat :=
  match stackOf x.req.addr with
  | some (_, z) => channelOf k z
  | none => 0

/-- Whether an access is the next excess one that its channel serves: the oldest of the next partition in rotation (R213). -/
def excessTurn (s : State) (k j : Nat) (x : Access) : Bool :=
  let c := x.channel k
  let last := SMap.get 31 (s.stack k).turn c
  let place (p : Nat) : Nat := (p + 31 - last) % 32
  (s.stack k).accesses.zipIdx.all fun (y, i) =>
    y.guaranteed || y.channel k != c ||
      decide (place x.req.part < place y.req.part) || (y.req.part == x.req.part && decide (j ≤ i))

/-- STACK_ACCESS_DONE (R213): the `i`-th access in service completes, a guaranteed one at its fixed time, an excess one when
it is its turn; with none in service, time goes on to the next request that can be admitted. -/
def execStackAccessDone (i : Nat) (s : State) : Host.Outcome State Fault Refusal :=
  match (allAccesses s)[i]? with
  | none =>
    .next ((List.range 8).foldl (init := s) fun s k =>
      match (s.stack k).accesses, (s.stack k).waitingReqs with
      | [], r :: _ =>
        (match stackOf r.addr with
        | some (_, x) => serveUpTo k (admitAt s k x r) (s.stack k).waitingReqs.length s
        | none => s)
      | _, _ => s)
  | some (k, j, x) =>
    if !x.guaranteed && !excessTurn s k j x then .next s
    else
      let s := match x.due with
        | some d => (serveUpTo k d (s.stack k).waitingReqs.length s).upTo d
        | none => s
      let st := s.stack k
      let s := s.setStack k { st with
        accesses := st.accesses.eraseIdx j
        turn := if x.guaranteed then st.turn else SMap.put (x.channel k) x.req.part st.turn }
      .next (retryWaiting k (s.stack k).waitingReqs [] (s.send (.stackReply x.req none)))

/-- STACK_REFRESH (R217): a bank is refreshed in channel time outside the guaranteed load; what it holds stays. -/
def execStackRefresh (_k : Fin 8) (_channel _bank : Nat) (s : State) : Host.Outcome State Fault Refusal := .next s

end Sys2Proof.Machine
end

