-- ==== Sys2Proof/Machine/System.lean ====
section
/-! DEFINITION. System instructions (R75, R143, R180, R244, R478). -/
namespace Sys2Proof.Machine

/-- A system instruction of a spur context only (Table ALR-2), whose rd field alone is used: `val` is what it
reads. -/
def readSystem (i : Instr) (u : Agent) (f : FmtA) (s : State) (val : Nat → Nat → State → Nat) : Host.Outcome State Fault Refusal :=
  issue i u s [(!isSpur u, .illegalOpcode), (f.ra != 0 || f.rb != 0, .reservedBitSet)] fun s =>
    match u with
    | .spur t n => .go (setG u f.rd (val t n s) s)
    | .grotto _ => .halt .illegalOpcode

/-- The three register fields of NOP and END are reserved. -/
def anyField (f : FmtA) : Bool := f.rd != 0 || f.ra != 0 || f.rb != 0

/-- NOP (Table ALR-13). -/
def execNop (u : Agent) (f : FmtA) (s : State) : Host.Outcome State Fault Refusal :=
  issue (.nop u f) u s [(anyField f, .reservedBitSet)] fun s => .go s

/-- END (R143, R244): the context or core returns to IDLE; with a group open the context halts. -/
def execEndProg (u : Agent) (f : FmtA) (s : State) : Host.Outcome State Fault Refusal :=
  issue (.endProg u f) u s [(anyField f, .reservedBitSet)] fun s =>
    match u with
    | .spur t n =>
      if (openGroup s t n).isSome then .halt .wrongState
      else .done (setCtxAt s t n { ctxAt s t n with st := .idle })
    | .grotto k => .done (endGrotto k s)

/-- RDSTEP (R478): the number of the current step. -/
def execRdstep (u : Agent) (f : FmtA) (s : State) : Host.Outcome State Fault Refusal :=
  readSystem (.rdstep u f) u f s fun t _ s =>
    match partOfTile s t with
    | some p => curStep s p
    | none => 0

/-- RDCYC (R180, R478): step-clock cycles since the current step started. -/
def execRdcyc (u : Agent) (f : FmtA) (s : State) : Host.Outcome State Fault Refusal :=
  readSystem (.rdcyc u f) u f s fun t _ s =>
    match partOfTile s t with
    | some p => stepCycles s p
    | none => 0

/-- RDID (R75): logical index × 8 + context. -/
def execRdid (u : Agent) (f : FmtA) (s : State) : Host.Outcome State Fault Refusal :=
  readSystem (.rdid u f) u f s fun t n _ => t * 8 + n

end Sys2Proof.Machine
end

