-- ==== Sys2Proof/Machine/Vector.lean ====
section
/-! DEFINITION. Vector instructions (R100 to R104, R123 to R129, Tables ALR-6 to ALR-8, Table ALR-23). -/
namespace Sys2Proof.Machine

/-- Bits of a lane of type `T` (Table ALR-6). -/
def laneBits (t : BitVec 3) : Nat :=
  match t.toNat with
  | 0 | 3 | 4 => 8
  | 1 | 5 | 6 => 16
  | _ => 32
/-- The format of a floating lane type. -/
def laneFmt (t : BitVec 3) : FFmt :=
  match t.toNat with
  | 3 => e4m3
  | 4 => e5m2
  | 5 => fp16
  | 6 => bf16
  | _ => fp32
/-- Lanes of a register of the unit. -/
def laneCount (u : Agent) (t : BitVec 3) : Nat := 8 * vBytes u / laneBits t
/-- Lane `i` of width `w`. -/
def lane (v w i : Nat) : Nat := (v >>> (w * i)) % 2 ^ w
/-- The register whose lanes are `f 0`, `f 1`, … -/
def packLanes (w n : Nat) (f : Nat → Nat) : Nat :=
  (List.range n).foldl (fun a i => a + (f i % 2 ^ w) <<< (w * i)) 0
/-- Whether predicate `p` selects lane `i` of width `w` (R76); a grotto core has no predicates, and every lane of its registers
is selected (R159). -/
def laneOn (u : Agent) (s : State) (p : Nat) (w i : Nat) : Bool := !isSpur u || (getP u s p).bit (w / 8 * i)
/-- The result lanes merged into the old ones under predicate `p` (R124). -/
def mergeLanes (u : Agent) (s : State) (p w n old : Nat) (f : Nat → Nat) : Nat :=
  packLanes w n fun i => if laneOn u s p w i then f i else lane old w i

/-- An integer wrapped to `w` bits, or saturated to the range of `w` bits (R124). -/
def wrapSat (w : Nat) (sat : Bool) (i : Int) : Nat :=
  if sat then unsignedOf w (max (-(2 ^ (w - 1) : Nat)) (min ((2 ^ (w - 1) : Nat) - 1) i)) else unsignedOf w i

/-- A lane type that a grotto core lacks (Table ALR-6). -/
def badLane (u : Agent) (t : BitVec 3) : Bool := !isSpur u && (t == 1 || t == 5)
/-- A predicate field in a grotto core, which has no predicates (R159). -/
def badPred (u : Agent) (p : BitVec 3) : Bool := !isSpur u && p != 0

/-- A vector instruction: whether a grotto core has it (Table ALR-23), its must-be-zero fields, its illegal field
values; then its effect. -/
def vecIssue (i : Instr) (u : Agent) (s : State) (grotto reserved illegal : Bool) (body : State → Issue) :
    Host.Outcome State Fault Refusal :=
  issue i u s [(!isSpur u && !grotto, .illegalOpcode), (reserved, .reservedBitSet), (illegal, .illegalValue)] body

/-- What is illegal in every typed vector instruction: the lane type, saturation of a floating type, predicates
and register numbers of a grotto core. -/
def vecIllegal (u : Agent) (f : FmtV) : Bool :=
  badLane u f.t || (f.s && laneFloat f.t) || badPred u f.pm

/-- A lane operation of va, vb and the old vd, on patterns; `none` where the row lacks the kind of type. -/
structure LaneOp where
  ints : Option (Nat → Bool → Nat → Nat → Nat)
  floats : Option (FFmt → Nat → Nat → Nat → Nat)

/-- A merged lane-by-lane instruction of three registers (Table ALR-7). -/
def vecLanes (i : Instr) (u : Agent) (f : FmtV) (op : LaneOp) (useB : Bool) (s : State) : Host.Outcome State Fault Refusal :=
  let kind := if laneFloat f.t then op.floats.isNone else op.ints.isNone
  vecIssue i u s true (!useB && f.vb != 0)
    (vecIllegal u f || kind || badV u f.vd || badV u f.va || badV u f.vb) fun s =>
    let w := laneBits f.t
    let a := getV u s f.va
    let b := getV u s f.vb
    let d := getV u s f.vd
    let r := fun i =>
      if laneFloat f.t then
        match op.floats with
        | some g => g (laneFmt f.t) (lane a w i) (lane b w i) (lane d w i)
        | none => 0
      else
        match op.ints with
        | some g => g w f.s (lane a w i) (lane b w i)
        | none => 0
    .go (setV u f.vd (mergeLanes u s f.pm.toNat w (laneCount u f.t) d r) s)

/-- An integer operation on signed lanes, wrapped or saturated. -/
def intOp (g : Int → Int → Int) : Nat → Bool → Nat → Nat → Nat :=
  fun w sat a b => wrapSat w sat (g (signedOf w a) (signedOf w b))
/-- A floating operation on values, rounded once. -/
def floatOp (g : FpNum → FpNum → FpNum) : FFmt → Nat → Nat → Nat → Nat :=
  fun f a b _ => roundF f false (g (decodeF f a) (decodeF f b))

/-- VADD: va + vb (R124). -/
def execVadd (u : Agent) (f : FmtV) (s : State) : Host.Outcome State Fault Refusal :=
  vecLanes (.vadd u f) u f ⟨some (intOp (· + ·)), some (floatOp addN)⟩ true s

/-- VSUB: va - vb. -/
def execVsub (u : Agent) (f : FmtV) (s : State) : Host.Outcome State Fault Refusal :=
  vecLanes (.vsub u f) u f ⟨some (intOp (· - ·)), some (floatOp fun a b => addN a (negN b))⟩ true s

/-- VMUL: va × vb. -/
def execVmul (u : Agent) (f : FmtV) (s : State) : Host.Outcome State Fault Refusal :=
  vecLanes (.vmul u f) u f ⟨some (intOp (· * ·)), some (floatOp mulN)⟩ true s

/-- VFMA: va × vb + vd with one rounding, floating only. -/
def execVfma (u : Agent) (f : FmtV) (s : State) : Host.Outcome State Fault Refusal :=
  vecLanes (.vfma u f) u f ⟨none, some fun f a b d => roundF f false (addN (mulN (decodeF f a) (decodeF f b)) (decodeF f d))⟩ true s

/-- VMAX: maximum (R103). -/
def execVmax (u : Agent) (f : FmtV) (s : State) : Host.Outcome State Fault Refusal :=
  vecLanes (.vmax u f) u f ⟨some (intOp max), some (floatOp maxN)⟩ true s

/-- VMIN: minimum (R103). -/
def execVmin (u : Agent) (f : FmtV) (s : State) : Host.Outcome State Fault Refusal :=
  vecLanes (.vmin u f) u f ⟨some (intOp min), some (floatOp minN)⟩ true s

/-- VAND: bitwise and, integer only. -/
def execVand (u : Agent) (f : FmtV) (s : State) : Host.Outcome State Fault Refusal :=
  vecLanes (.vand u f) u f ⟨some fun _ _ a b => a &&& b, none⟩ true s

/-- VOR: bitwise or, integer only. -/
def execVor (u : Agent) (f : FmtV) (s : State) : Host.Outcome State Fault Refusal :=
  vecLanes (.vor u f) u f ⟨some fun _ _ a b => a ||| b, none⟩ true s

/-- VXOR: bitwise exclusive or, integer only. -/
def execVxor (u : Agent) (f : FmtV) (s : State) : Host.Outcome State Fault Refusal :=
  vecLanes (.vxor u f) u f ⟨some fun _ _ a b => a ^^^ b, none⟩ true s

/-- VSLL: va shifted left by the vb lane modulo the lane width. -/
def execVsll (u : Agent) (f : FmtV) (s : State) : Host.Outcome State Fault Refusal :=
  vecLanes (.vsll u f) u f ⟨some fun w sat a b => wrapSat w sat (signedOf w a * 2 ^ (b % w)), none⟩ true s

/-- VSRA: va shifted right arithmetic. -/
def execVsra (u : Agent) (f : FmtV) (s : State) : Host.Outcome State Fault Refusal :=
  vecLanes (.vsra u f) u f ⟨some fun w _ a b => unsignedOf w (signedOf w a / 2 ^ (b % w)), none⟩ true s

/-- A compare (R125): the governing bit of each selected lane takes the result, every other bit 0; a write to p0
is discarded. -/
def vecCompare (i : Instr) (u : Agent) (f : FmtV) (ints : Int → Int → Bool) (floats : FpNum → FpNum → Bool) (s : State) :
    Host.Outcome State Fault Refusal :=
  vecIssue i u s false (decide (7 < f.vd.toNat) || (f.s && !laneFloat f.t)) (vecIllegal u f) fun s =>
    let w := laneBits f.t
    let a := getV u s f.va
    let b := getV u s f.vb
    let holds := fun i =>
      if laneFloat f.t then floats (decodeF (laneFmt f.t) (lane a w i)) (decodeF (laneFmt f.t) (lane b w i))
      else ints (signedOf w (lane a w i)) (signedOf w (lane b w i))
    let r := (List.range (laneCount u f.t)).foldl (init := 0) fun m i =>
      if laneOn u s f.pm.toNat w i && holds i then m + 2 ^ (w / 8 * i) else m
    .go (setP u f.vd.toNat (BitVec.ofNat 64 r) s)

/-- VCMPEQ: va = vb. -/
def execVcmpeq (u : Agent) (f : FmtV) (s : State) : Host.Outcome State Fault Refusal :=
  vecCompare (.vcmpeq u f) u f (fun a b => a == b) eqN s

/-- VCMPLT: va < vb. -/
def execVcmplt (u : Agent) (f : FmtV) (s : State) : Host.Outcome State Fault Refusal :=
  vecCompare (.vcmplt u f) u f (fun a b => decide (a < b)) ltN s

/-- VCMPLE: va ≤ vb. -/
def execVcmple (u : Agent) (f : FmtV) (s : State) : Host.Outcome State Fault Refusal :=
  vecCompare (.vcmple u f) u f (fun a b => decide (a ≤ b)) (fun a b => ltN a b || eqN a b) s

/-- VSEL: the selector p[pm] takes each lane from va or from vb (Table ALR-8). -/
def execVsel (u : Agent) (f : FmtV) (s : State) : Host.Outcome State Fault Refusal :=
  vecIssue (.vsel u f) u s false false (vecIllegal u f) fun s =>
    let w := laneBits f.t
    .go (setV u f.vd (packLanes w (laneCount u f.t) fun i =>
      if laneOn u s f.pm.toNat w i then lane (getV u s f.va) w i else lane (getV u s f.vb) w i) s)

/-- VBCAST: every lane takes the low lane bits of g[va]. -/
def execVbcast (u : Agent) (f : FmtV) (s : State) : Host.Outcome State Fault Refusal :=
  vecIssue (.vbcast u f) u s true (f.vb != 0) (vecIllegal u f || badV u f.vd || badG u f.va) fun s =>
    .go (setV u f.vd (mergeLanes u s f.pm.toNat (laneBits f.t) (laneCount u f.t) (getV u s f.vd)
      fun _ => getG u s f.va) s)

/-- VEXTR: g[vd] takes lane g[vb] modulo the lanes of v[va], integers sign-extended. -/
def execVextr (u : Agent) (f : FmtV) (s : State) : Host.Outcome State Fault Refusal :=
  vecIssue (.vextr u f) u s true (f.pm != 0 || (f.s && !laneFloat f.t)) (vecIllegal u f || badG u f.vd || badV u f.va || badG u f.vb) fun s =>
    let w := laneBits f.t
    let x := lane (getV u s f.va) w (getG u s f.vb % laneCount u f.t)
    .go (setG u f.vd (if laneFloat f.t then x else pat u (signedOf w x)) s)

/-- VINS: lane g[vb] modulo the lanes of vd takes the low lane bits of g[va]. -/
def execVins (u : Agent) (f : FmtV) (s : State) : Host.Outcome State Fault Refusal :=
  vecIssue (.vins u f) u s true (f.pm != 0) (vecIllegal u f || badV u f.vd || badG u f.va || badG u f.vb) fun s =>
    let w := laneBits f.t
    let k := getG u s f.vb % laneCount u f.t
    .go (setV u f.vd (packLanes w (laneCount u f.t) fun i =>
      if i = k then getG u s f.va else lane (getV u s f.vd) w i) s)

/-- VPERM: lane i takes the lane of va that the vb lane names, modulo the lanes. -/
def execVperm (u : Agent) (f : FmtV) (s : State) : Host.Outcome State Fault Refusal :=
  vecIssue (.vperm u f) u s true false (vecIllegal u f || badV u f.vd || badV u f.va || badV u f.vb) fun s =>
    let w := laneBits f.t
    .go (setV u f.vd (mergeLanes u s f.pm.toNat w (laneCount u f.t) (getV u s f.vd)
      fun i => lane (getV u s f.va) w (lane (getV u s f.vb) w i % laneCount u f.t)) s)

/-- VMOVP: p[vd] = g[va]. -/
def execVmovp (u : Agent) (f : FmtV) (s : State) : Host.Outcome State Fault Refusal :=
  vecIssue (.vmovp u f) u s false (decide (7 < f.vd.toNat) || f.vb != 0 || f.pm != 0 || f.s || f.t != 0) false fun s =>
    .go (setP u f.vd.toNat (BitVec.ofNat 64 (getG u s f.va)) s)

/-- VMOVG: g[vd] = p[va]. -/
def execVmovg (u : Agent) (f : FmtV) (s : State) : Host.Outcome State Fault Refusal :=
  vecIssue (.vmovg u f) u s false (decide (7 < f.va.toNat) || f.vb != 0 || f.pm != 0 || f.s || f.t != 0) false fun s =>
    .go (setG u f.vd (getP u s f.va.toNat).toNat s)

/-- VABS: the sign bit cleared; an integer minimum wraps or saturates. -/
def execVabs (u : Agent) (f : FmtV) (s : State) : Host.Outcome State Fault Refusal :=
  vecLanes (.vabs u f) u f ⟨some fun w sat a _ => wrapSat w sat (signedOf w a).natAbs, some fun m a _ _ => a % 2 ^ (m.bits - 1)⟩ false s

/-- VNEG: the sign bit flipped; an integer minimum wraps or saturates. -/
def execVneg (u : Agent) (f : FmtV) (s : State) : Host.Outcome State Fault Refusal :=
  vecLanes (.vneg u f) u f ⟨some fun w sat a _ => wrapSat w sat (-signedOf w a), some fun m a _ _ => a ^^^ 2 ^ (m.bits - 1)⟩ false s

/-- VGETEXP of one FP32 pattern, an INT32 pattern. -/
def getExp (x : Nat) : Nat :=
  match decodeF fp32 x with
  | .nan | .inf _ => 2 ^ 31 - 1
  | .fin _ m e => if m = 0 then 2 ^ 31 else unsignedOf 32 (e + Nat.log2 m)

/-- VSCALE of one FP32 pattern by a power of two. -/
def scaleF (x : Nat) (n : Int) : Nat :=
  roundF fp32 false (match decodeF fp32 x with | .fin g m e => .fin g m (e + n) | y => y)

/-- VGETEXP: T must be 7. -/
def execVgetexp (u : Agent) (f : FmtV) (s : State) : Host.Outcome State Fault Refusal :=
  vecIssue (.vgetexp u f) u s true (f.vb != 0) (f.t != 7 || vecIllegal u f || badV u f.vd || badV u f.va) fun s =>
    .go (setV u f.vd (mergeLanes u s f.pm.toNat 32 (laneCount u f.t) (getV u s f.vd)
      fun i => getExp (lane (getV u s f.va) 32 i)) s)

/-- VSCALE: T must be 7. -/
def execVscale (u : Agent) (f : FmtV) (s : State) : Host.Outcome State Fault Refusal :=
  vecIssue (.vscale u f) u s true false (f.t != 7 || vecIllegal u f || badV u f.vd || badV u f.va || badV u f.vb) fun s =>
    .go (setV u f.vd (mergeLanes u s f.pm.toNat 32 (laneCount u f.t) (getV u s f.vd)
      fun i => scaleF (lane (getV u s f.va) 32 i) (signedOf 32 (lane (getV u s f.vb) 32 i))) s)

/-- VMOV: vd = va. -/
def execVmov (u : Agent) (f : FmtV) (s : State) : Host.Outcome State Fault Refusal :=
  vecLanes (.vmov u f) u f ⟨some fun _ _ a _ => a, some fun _ a _ _ => a⟩ false s

/-- A pattern of type `t` converted to type `d` (R126): an infinity keeps where the destination is not narrower
and has one. -/
def convertLane (t d : BitVec 3) (sat : Bool) (x : Nat) : Nat :=
  let w := laneBits d
  if laneFloat t then
    let v := decodeF (laneFmt t) x
    if laneFloat d then
      match v with
      | .inf _ => roundF (laneFmt d) (sat && (decide (w < laneBits t) || (laneFmt d).infPat.isNone)) v
      | _ => roundF (laneFmt d) sat v
    else unsignedOf w (toIntSat w v)
  else
    let i := signedOf (laneBits t) x
    if laneFloat d then roundF (laneFmt d) sat (intN i) else wrapSat w sat i

/-- VCVT: from type T to the type in bits 2:0 of the vb field, PART in its bits 4:3 (R126). -/
def execVcvt (u : Agent) (f : FmtV) (s : State) : Host.Outcome State Fault Refusal :=
  let d : BitVec 3 := f.vb.setWidth 3
  let part := f.vb.toNat / 8
  let sw := laneBits f.t
  let dw := laneBits d
  let k := if sw ≤ dw then dw / sw else sw / dw
  vecIssue (.vcvt u f) u s true (f.pm != 0)
    (badLane u f.t || badLane u d || decide (k ≤ part) || badV u f.vd || badV u f.va) fun s =>
    let a := getV u s f.va
    let n := laneCount u d
    let m := laneCount u f.t
    .go (setV u f.vd (packLanes dw n fun i =>
      if sw ≤ dw then convertLane f.t d f.s (lane a sw (part * n + i))
      else if part * m ≤ i ∧ i < part * m + m then convertLane f.t d f.s (lane a sw (i - part * m))
      else lane (getV u s f.vd) dw i) s)

/-- A special function of each FP32 lane (R127); T must be 7 and S 0. -/
def vecSpecial (i : Instr) (u : Agent) (f : FmtV) (grotto : Bool) (g : W32 → Nat) (s : State) : Host.Outcome State Fault Refusal :=
  vecIssue i u s grotto (f.vb != 0) (f.t != 7 || f.s || badPred u f.pm || badV u f.vd || badV u f.va) fun s =>
    .go (setV u f.vd (mergeLanes u s f.pm.toNat 32 (laneCount u f.t) (getV u s f.vd)
      fun i => g (BitVec.ofNat 32 (lane (getV u s f.va) 32 i))) s)

/-- EXP2 (R102, R127). -/
def execExp2 (u : Agent) (f : FmtV) (s : State) : Host.Outcome State Fault Refusal := vecSpecial (.exp2 u f) u f true exp2F s

/-- RCP (R102, R127). -/
def execRcp (u : Agent) (f : FmtV) (s : State) : Host.Outcome State Fault Refusal := vecSpecial (.rcp u f) u f true rcpF s

/-- RSQRT (R102, R127); a grotto core has none. -/
def execRsqrt (u : Agent) (f : FmtV) (s : State) : Host.Outcome State Fault Refusal := vecSpecial (.rsqrt u f) u f false rsqrtF s

/-- Adjacent pairs combined: one level of the tree of R103. -/
def pairUp {α : Type} (g : α → α → α) : List α → List α
  | x :: y :: r => g x y :: pairUp g r
  | l => l

/-- The tree of R103 over at most 2^n lanes. -/
def reduceTree {α : Type} (g : α → α → α) : Nat → List α → List α
  | 0, l => l
  | n + 1, l => reduceTree g n (pairUp g l)

/-- A reduction (R128): `ints` combines integers of the lane width, `floats` values of the lane format; excluded
lanes enter as the identities. An infinity that the format has no pattern for is written as R101 writes overflow (the model's
choice, log entry 87). -/
def vecReduce (i : Instr) (u : Agent) (f : FmtV) (ints : Nat → Int → Int → Int) (iId : Nat → Int) (iIn : Int → Int)
    (floats : FFmt → FpNum → FpNum → FpNum) (fId : FpNum) (fIn : FpNum → FpNum) (s : State) : Host.Outcome State Fault Refusal :=
  vecIssue i u s true (f.vb != 0) (vecIllegal u f || badG u f.vd || badV u f.va) fun s =>
    let w := laneBits f.t
    let n := laneCount u f.t
    let a := getV u s f.va
    let on := laneOn u s f.pm.toNat w
    if laneFloat f.t then
      let m := laneFmt f.t
      let l := (List.range n).map fun i => if on i then fIn (decodeF m (lane a w i)) else fId
      let r := (reduceTree (floats m) 7 l).headD .nan
      .go (setG u f.vd (roundF m false r) s)
    else
      let l := (List.range n).map fun i => if on i then iIn (signedOf w (lane a w i)) else iId w
      .go (setG u f.vd (pat u ((reduceTree (ints w) 7 l).headD 0)) s)

/-- VRED SUM: each level wraps, saturates with S = 1, or rounds. -/
def execVredSum (u : Agent) (f : FmtV) (s : State) : Host.Outcome State Fault Refusal :=
  vecReduce (.vredSum u f) u f (fun w a b => signedOf w (wrapSat w f.s (a + b))) (fun _ => 0) id
    (fun m a b => decodeF m (roundF m false (addN a b))) (.fin true 0 0) id s

/-- VRED MAX. -/
def execVredMax (u : Agent) (f : FmtV) (s : State) : Host.Outcome State Fault Refusal :=
  vecReduce (.vredMax u f) u f (fun _ => max) (fun w => -(2 ^ (w - 1) : Nat)) id (fun _ => maxN) (.inf true) id s

/-- VRED MIN. -/
def execVredMin (u : Agent) (f : FmtV) (s : State) : Host.Outcome State Fault Refusal :=
  vecReduce (.vredMin u f) u f (fun _ => min) (fun w => (2 ^ (w - 1) : Nat) - 1) id (fun _ => minN) (.inf false) id s

/-- VRED AMAX: the largest magnitude, non-negative. -/
def execVredAmax (u : Agent) (f : FmtV) (s : State) : Host.Outcome State Fault Refusal :=
  vecReduce (.vredAmax u f) u f (fun _ => max) (fun _ => 0) (fun i => i.natAbs) (fun _ => maxN) (.fin false 0 0) absN s

/-- VDOT (R129): products and sum exact, rounded once into FP32, or INT32 lanes that wrap or saturate. -/
def execVdot (u : Agent) (f : FmtV) (s : State) : Host.Outcome State Fault Refusal :=
  vecIssue (.vdot u f) u s true false
    (f.t == 2 || f.t == 7 || vecIllegal u f || badV u f.vd || badV u f.va || badV u f.vb) fun s =>
    let w := laneBits f.t
    let k := 32 / w
    let a := getV u s f.va
    let b := getV u s f.vb
    let d := getV u s f.vd
    let r := fun i =>
      if laneFloat f.t then
        let m := laneFmt f.t
        roundF fp32 false ((List.range k).foldl (init := decodeF fp32 (lane d 32 i)) fun x j =>
          addN x (mulN (decodeF m (lane a w (k * i + j))) (decodeF m (lane b w (k * i + j)))))
      else
        wrapSat 32 f.s ((List.range k).foldl (init := signedOf 32 (lane d 32 i)) fun x j =>
          x + signedOf w (lane a w (k * i + j)) * signedOf w (lane b w (k * i + j)))
    .go (setV u f.vd (mergeLanes u s f.pm.toNat 32 (laneCount u 7) d r) s)

end Sys2Proof.Machine
end

