-- ==== Sys2Proof/Machine/Dispatch.lean ====
section
/-! DEFINITION. The meaning of each command: one arm per row of spec/opcode_table.json. -/
namespace Sys2Proof.Machine

/-- The effect of one command on the state. -/
def exec (i : Instr) (s : State) : Host.Outcome State Fault Refusal :=
  match i with
  | .add u f => Sys2Proof.Machine.execAdd u f s
  | .sub u f => Sys2Proof.Machine.execSub u f s
  | .and u f => Sys2Proof.Machine.execAnd u f s
  | .or u f => Sys2Proof.Machine.execOr u f s
  | .xor u f => Sys2Proof.Machine.execXor u f s
  | .sll u f => Sys2Proof.Machine.execSll u f s
  | .srl u f => Sys2Proof.Machine.execSrl u f s
  | .sra u f => Sys2Proof.Machine.execSra u f s
  | .min u f => Sys2Proof.Machine.execMin u f s
  | .minu u f => Sys2Proof.Machine.execMinu u f s
  | .max u f => Sys2Proof.Machine.execMax u f s
  | .maxu u f => Sys2Proof.Machine.execMaxu u f s
  | .cmpeq u f => Sys2Proof.Machine.execCmpeq u f s
  | .cmplt u f => Sys2Proof.Machine.execCmplt u f s
  | .cmpltu u f => Sys2Proof.Machine.execCmpltu u f s
  | .mul u f => Sys2Proof.Machine.execMul u f s
  | .mulh u f => Sys2Proof.Machine.execMulh u f s
  | .mulhu u f => Sys2Proof.Machine.execMulhu u f s
  | .clz u f => Sys2Proof.Machine.execClz u f s
  | .popc u f => Sys2Proof.Machine.execPopc u f s
  | .addi u f => Sys2Proof.Machine.execAddi u f s
  | .andi u f => Sys2Proof.Machine.execAndi u f s
  | .ori u f => Sys2Proof.Machine.execOri u f s
  | .xori u f => Sys2Proof.Machine.execXori u f s
  | .shi u f => Sys2Proof.Machine.execShi u f s
  | .movz u f => Sys2Proof.Machine.execMovz u f s
  | .movk u f => Sys2Proof.Machine.execMovk u f s
  | .beq u f => Sys2Proof.Machine.execBeq u f s
  | .bne u f => Sys2Proof.Machine.execBne u f s
  | .blt u f => Sys2Proof.Machine.execBlt u f s
  | .bge u f => Sys2Proof.Machine.execBge u f s
  | .bltu u f => Sys2Proof.Machine.execBltu u f s
  | .bgeu u f => Sys2Proof.Machine.execBgeu u f s
  | .jal u f => Sys2Proof.Machine.execJal u f s
  | .jalr u f => Sys2Proof.Machine.execJalr u f s
  | .ld u f => Sys2Proof.Machine.execLd u f s
  | .lds u f => Sys2Proof.Machine.execLds u f s
  | .st u f => Sys2Proof.Machine.execSt u f s
  | .vld u f => Sys2Proof.Machine.execVld u f s
  | .vst u f => Sys2Proof.Machine.execVst u f s
  | .vadd u f => Sys2Proof.Machine.execVadd u f s
  | .vsub u f => Sys2Proof.Machine.execVsub u f s
  | .vmul u f => Sys2Proof.Machine.execVmul u f s
  | .vfma u f => Sys2Proof.Machine.execVfma u f s
  | .vmax u f => Sys2Proof.Machine.execVmax u f s
  | .vmin u f => Sys2Proof.Machine.execVmin u f s
  | .vand u f => Sys2Proof.Machine.execVand u f s
  | .vor u f => Sys2Proof.Machine.execVor u f s
  | .vxor u f => Sys2Proof.Machine.execVxor u f s
  | .vsll u f => Sys2Proof.Machine.execVsll u f s
  | .vsra u f => Sys2Proof.Machine.execVsra u f s
  | .vcmpeq u f => Sys2Proof.Machine.execVcmpeq u f s
  | .vcmplt u f => Sys2Proof.Machine.execVcmplt u f s
  | .vcmple u f => Sys2Proof.Machine.execVcmple u f s
  | .vsel u f => Sys2Proof.Machine.execVsel u f s
  | .vbcast u f => Sys2Proof.Machine.execVbcast u f s
  | .vextr u f => Sys2Proof.Machine.execVextr u f s
  | .vins u f => Sys2Proof.Machine.execVins u f s
  | .vperm u f => Sys2Proof.Machine.execVperm u f s
  | .vmovp u f => Sys2Proof.Machine.execVmovp u f s
  | .vmovg u f => Sys2Proof.Machine.execVmovg u f s
  | .vabs u f => Sys2Proof.Machine.execVabs u f s
  | .vneg u f => Sys2Proof.Machine.execVneg u f s
  | .vgetexp u f => Sys2Proof.Machine.execVgetexp u f s
  | .vscale u f => Sys2Proof.Machine.execVscale u f s
  | .vmov u f => Sys2Proof.Machine.execVmov u f s
  | .vcvt u f => Sys2Proof.Machine.execVcvt u f s
  | .exp2 u f => Sys2Proof.Machine.execExp2 u f s
  | .rcp u f => Sys2Proof.Machine.execRcp u f s
  | .rsqrt u f => Sys2Proof.Machine.execRsqrt u f s
  | .vredSum u f => Sys2Proof.Machine.execVredSum u f s
  | .vredMax u f => Sys2Proof.Machine.execVredMax u f s
  | .vredMin u f => Sys2Proof.Machine.execVredMin u f s
  | .vredAmax u f => Sys2Proof.Machine.execVredAmax u f s
  | .vdot u f => Sys2Proof.Machine.execVdot u f s
  | .cadd u f => Sys2Proof.Machine.execCadd u f s
  | .cwait u f => Sys2Proof.Machine.execCwait u f s
  | .crd u f => Sys2Proof.Machine.execCrd u f s
  | .crdf u f => Sys2Proof.Machine.execCrdf u f s
  | .crdh u f => Sys2Proof.Machine.execCrdh u f s
  | .csigl u f => Sys2Proof.Machine.execCsigl u f s
  | .cwaitl u f => Sys2Proof.Machine.execCwaitl u f s
  | .cgbegin u f => Sys2Proof.Machine.execCgbegin u f s
  | .cgcommit u f => Sys2Proof.Machine.execCgcommit u f s
  | .cgabort u f => Sys2Proof.Machine.execCgabort u f s
  | .cgstat u f => Sys2Proof.Machine.execCgstat u f s
  | .tpin u f => Sys2Proof.Machine.execTpin u f s
  | .twr u f => Sys2Proof.Machine.execTwr u f s
  | .kvapp u f => Sys2Proof.Machine.execKvapp u f s
  | .qpush u f => Sys2Proof.Machine.execQpush u f s
  | .qpushn u f => Sys2Proof.Machine.execQpushn u f s
  | .qflush u f => Sys2Proof.Machine.execQflush u f s
  | .qstat u f => Sys2Proof.Machine.execQstat u f s
  | .nop u f => Sys2Proof.Machine.execNop u f s
  | .endProg u f => Sys2Proof.Machine.execEndProg u f s
  | .rdstep u f => Sys2Proof.Machine.execRdstep u f s
  | .rdcyc u f => Sys2Proof.Machine.execRdcyc u f s
  | .rdid u f => Sys2Proof.Machine.execRdid u f s
  | .queueHead t q => Sys2Proof.Machine.execQueueHead t q s
  | .mxload t => Sys2Proof.Machine.execMxload t s
  | .mxloadDone t => Sys2Proof.Machine.execMxloadDone t s
  | .mxmul t => Sys2Proof.Machine.execMxmul t s
  | .mxmulDone t => Sys2Proof.Machine.execMxmulDone t s
  | .mxdrain t => Sys2Proof.Machine.execMxdrain t s
  | .mxdrainDone t => Sys2Proof.Machine.execMxdrainDone t s
  | .mxkat t => Sys2Proof.Machine.execMxkat t s
  | .mxkatDone t => Sys2Proof.Machine.execMxkatDone t s
  | .mvcopy t => Sys2Proof.Machine.execMvcopy t s
  | .mvcopyDone t j => Sys2Proof.Machine.execMvcopyDone t j s
  | .mvtran t => Sys2Proof.Machine.execMvtran t s
  | .mvtranDone t j => Sys2Proof.Machine.execMvtranDone t j s
  | .fsend t => Sys2Proof.Machine.execFsend t s
  | .fsendDone t => Sys2Proof.Machine.execFsendDone t s
  | .signalClause t q => Sys2Proof.Machine.execSignalClause t q s
  | .counterAdd c => Sys2Proof.Machine.execCounterAdd c s
  | .contextWake t w => Sys2Proof.Machine.execContextWake t w s
  | .saddleWake t w => Sys2Proof.Machine.execSaddleWake t w s
  | .queueSlotReady t n => Sys2Proof.Machine.execQueueSlotReady t n s
  | .accBankReady t n => Sys2Proof.Machine.execAccBankReady t n s
  | .commitPoint t => Sys2Proof.Machine.execCommitPoint t s
  | .commitDone t => Sys2Proof.Machine.execCommitDone t s
  | .tpinDone t => Sys2Proof.Machine.execTpinDone t s
  | .walkDone j => Sys2Proof.Machine.execWalkDone j s
  | .xltinv a p v => Sys2Proof.Machine.execXltinv a p v s
  | .xltinvDone p => Sys2Proof.Machine.execXltinvDone p s
  | .loadTrv a p v => Sys2Proof.Machine.execLoadTrv a p v s
  | .loadDone p => Sys2Proof.Machine.execLoadDone p s
  | .runTrv a p v => Sys2Proof.Machine.execRunTrv a p v s
  | .stopTrv a p v => Sys2Proof.Machine.execStopTrv a p v s
  | .stopDone p => Sys2Proof.Machine.execStopDone p s
  | .unloadTrv a p v => Sys2Proof.Machine.execUnloadTrv a p v s
  | .partRunEpoch a p v => Sys2Proof.Machine.execPartRunEpoch a p v s
  | .stepStart p => Sys2Proof.Machine.execStepStart p s
  | .stepEnd p => Sys2Proof.Machine.execStepEnd p s
  | .traverseEnd p => Sys2Proof.Machine.execTraverseEnd p s
  | .deadlineCheck p j => Sys2Proof.Machine.execDeadlineCheck p j s
  | .epochMark up => Sys2Proof.Machine.execEpochMark up s
  | .diagnosisDone h r => Sys2Proof.Machine.execDiagnosisDone h r s
  | .diag a h v => Sys2Proof.Machine.execDiag a h v s
  | .katOverdue h => Sys2Proof.Machine.execKatOverdue h s
  | .ctxRestart a h v => Sys2Proof.Machine.execCtxRestart a h v s
  | .flush a h v => Sys2Proof.Machine.execFlush a h v s
  | .sliceRefreshSlot h => Sys2Proof.Machine.execSliceRefreshSlot h s
  | .stackRequest r => Sys2Proof.Machine.execStackRequest r s
  | .stackAccessDone j => Sys2Proof.Machine.execStackAccessDone j s
  | .stackRefresh k channel bank => Sys2Proof.Machine.execStackRefresh k channel bank s
  | .fillDone f => Sys2Proof.Machine.execFillDone f s
  | .slScrubStart a h v => Sys2Proof.Machine.execSlScrubStart a h v s
  | .slScrubStop a h v => Sys2Proof.Machine.execSlScrubStop a h v s
  | .memcScrubStart a k v => Sys2Proof.Machine.execMemcScrubStart a k v s
  | .memcScrubStop a k v => Sys2Proof.Machine.execMemcScrubStop a k v s
  | .scrubPassDone x => Sys2Proof.Machine.execScrubPassDone x s
  | .scrubPeriod x => Sys2Proof.Machine.execScrubPeriod x s
  | .slRowret a h v => Sys2Proof.Machine.execSlRowret a h v s
  | .slRowretDone h => Sys2Proof.Machine.execSlRowretDone h s
  | .bankret a k v => Sys2Proof.Machine.execBankret a k v s
  | .bankretDone k => Sys2Proof.Machine.execBankretDone k s
  | .tileInjArm a h v => Sys2Proof.Machine.execTileInjArm a h v s
  | .tileInjRawrd a h v => Sys2Proof.Machine.execTileInjRawrd a h v s
  | .memcInjArm a k v => Sys2Proof.Machine.execMemcInjArm a k v s
  | .memcInjRawrd a k v => Sys2Proof.Machine.execMemcInjRawrd a k v s
  | .marginStart a k v => Sys2Proof.Machine.execMarginStart a k v s
  | .marginDone k m => Sys2Proof.Machine.execMarginDone k m s
  | .dripLeak d => Sys2Proof.Machine.execDripLeak d s
  | .slclr a h v => Sys2Proof.Machine.execSlclr a h v s
  | .tsclr a h v => Sys2Proof.Machine.execTsclr a h v s
  | .memcDripClr a k c v => Sys2Proof.Machine.execMemcDripClr a k c v s
  | .grtCdripClr a k v => Sys2Proof.Machine.execGrtCdripClr a k v s
  | .dripcfgWrite a b v => Sys2Proof.Machine.execDripcfgWrite a b v s
  | .grottoLaunch k => Sys2Proof.Machine.execGrottoLaunch k s
  | .grottoWake k => Sys2Proof.Machine.execGrottoWake k s
  | .launch a k v => Sys2Proof.Machine.execLaunch a k v s
  | .grtRestart a k v => Sys2Proof.Machine.execGrtRestart a k v s
  | .grtMode a k v => Sys2Proof.Machine.execGrtMode a k v s
  | .peakclr a k v => Sys2Proof.Machine.execPeakclr a k v s
  | .grottoRefreshDue k => Sys2Proof.Machine.execGrottoRefreshDue k s
  | .grottoPause k => Sys2Proof.Machine.execGrottoPause k s
  | .grottoRefreshOpDone k => Sys2Proof.Machine.execGrottoRefreshOpDone k s
  | .ordinaryAccessService k => Sys2Proof.Machine.execOrdinaryAccessService k s
  | .scrubWaitExpiry k => Sys2Proof.Machine.execScrubWaitExpiry k s
  | .linkEn a l v => Sys2Proof.Machine.execLinkEn a l v s
  | .linkUp l r => Sys2Proof.Machine.execLinkUp l r s
  | .retrain a l v => Sys2Proof.Machine.execRetrain a l v s
  | .relock a l v => Sys2Proof.Machine.execRelock a l v s
  | .frameReceive l f => Sys2Proof.Machine.execFrameReceive l f s
  | .replay l => Sys2Proof.Machine.execReplay l s
  | .laneFail l lanes => Sys2Proof.Machine.execLaneFail l lanes s
  | .linkRealigned l peerWidth => Sys2Proof.Machine.execLinkRealigned l peerWidth s
  | .echo l e => Sys2Proof.Machine.execEcho l e s
  | .timeHoldover => Sys2Proof.Machine.execTimeHoldover s
  | .ptmRequest master => Sys2Proof.Machine.execPtmRequest master s
  | .ppsInEdge => Sys2Proof.Machine.execPpsInEdge s
  | .ppsOutEdge => Sys2Proof.Machine.execPpsOutEdge s
  | .timeSet a v => Sys2Proof.Machine.execTimeSet a v s
  | .timeE0 a v => Sys2Proof.Machine.execTimeE0 a v s
  | .fabricArrival l x data => Sys2Proof.Machine.execFabricArrival l x data s
  | .scheduledDelivery l => Sys2Proof.Machine.execScheduledDelivery l s
  | .failureNotice x => Sys2Proof.Machine.execFailureNotice x s
  | .meshResend h m => Sys2Proof.Machine.execMeshResend h m s
  | .hvcAdd a g j v => Sys2Proof.Machine.execHvcAdd a g j v s
  | .completionWrite p q => Sys2Proof.Machine.execCompletionWrite p q s
  | .hbeat a v => Sys2Proof.Machine.execHbeat a v s
  | .stewardLapsed => Sys2Proof.Machine.execStewardLapsed s
  | .claim a v => Sys2Proof.Machine.execClaim a v s
  | .fenceEnd => Sys2Proof.Machine.execFenceEnd s
  | .deviceCommit a v => Sys2Proof.Machine.execDeviceCommit a v s
  | .deviceCommitDone => Sys2Proof.Machine.execDeviceCommitDone s
  | .pcommitDiscard a v => Sys2Proof.Machine.execPcommitDiscard a v s
  | .partCommit a p v => Sys2Proof.Machine.execPartCommit a p v s
  | .partCommitDone p => Sys2Proof.Machine.execPartCommitDone p s
  | .partDiscard a p v => Sys2Proof.Machine.execPartDiscard a p v s
  | .pcieReset port k => Sys2Proof.Machine.execPcieReset port k s
  | .pcieLinkUp port => Sys2Proof.Machine.execPcieLinkUp port s
  | .hostBarAccess x => Sys2Proof.Machine.execHostBarAccess x s
  | .registerWrite x v => Sys2Proof.Machine.execRegisterWrite x v s
  | .ridgeLaneBad m b => Sys2Proof.Machine.execRidgeLaneBad m b s
  | .ridgeRetrained m => Sys2Proof.Machine.execRidgeRetrained m s
  | .ridgeHandshake m => Sys2Proof.Machine.execRidgeHandshake m s
  | .rstside a m v => Sys2Proof.Machine.execRstside a m v s
  | .ridgeRetestDone m peakSide bad => Sys2Proof.Machine.execRidgeRetestDone m peakSide bad s
  | .guestRd addr len => Sys2Proof.Machine.execGuestRd addr len s
  | .guestWr addr data => Sys2Proof.Machine.execGuestWr addr data s
  | .guestCadd c amount => Sys2Proof.Machine.execGuestCadd c amount s
  | .guestCrd c => Sys2Proof.Machine.execGuestCrd c s
  | .guestLinkDown => Sys2Proof.Machine.execGuestLinkDown s
  | .greset a v => Sys2Proof.Machine.execGreset a v s
  | .gstCommit a v => Sys2Proof.Machine.execGstCommit a v s
  | .gstDiscard a v => Sys2Proof.Machine.execGstDiscard a v s
  | .vglowUp strap fusesOk => Sys2Proof.Machine.execVglowUp strap fusesOk s
  | .railInRegulation r => Sys2Proof.Machine.execRailInRegulation r s
  | .railSeqFail r => Sys2Proof.Machine.execRailSeqFail r s
  | .railSeqRetry => Sys2Proof.Machine.execRailSeqRetry s
  | .bupGo a v => Sys2Proof.Machine.execBupGo a v s
  | .bupSkip a v => Sys2Proof.Machine.execBupSkip a v s
  | .bupStepDone elapsedMs r => Sys2Proof.Machine.execBupStepDone elapsedMs r s
  | .saveRecord a v => Sys2Proof.Machine.execSaveRecord a v s
  | .rowShiftRepair h countersReadable => Sys2Proof.Machine.execRowShiftRepair h countersReadable s
  | .tileMigrateDone c => Sys2Proof.Machine.execTileMigrateDone c s
  | .refillDone c => Sys2Proof.Machine.execRefillDone c s
  | .repairComplete c => Sys2Proof.Machine.execRepairComplete c s
  | .tileReset a v => Sys2Proof.Machine.execTileReset a v s
  | .clusterReset a v => Sys2Proof.Machine.execClusterReset a v s
  | .deviceReset a v => Sys2Proof.Machine.execDeviceReset a v s
  | .partReset a p v => Sys2Proof.Machine.execPartReset a p v s
  | .resetDone r => Sys2Proof.Machine.execResetDone r s
  | .supplyDroop m mv => Sys2Proof.Machine.execSupplyDroop m mv s
  | .supplyDip m => Sys2Proof.Machine.execSupplyDip m s
  | .supplyRecover m lowest durationNs => Sys2Proof.Machine.execSupplyRecover m lowest durationNs s
  | .supplySustained m lowest => Sys2Proof.Machine.execSupplySustained m lowest s
  | .supplyReset m lowest => Sys2Proof.Machine.execSupplyReset m lowest s
  | .housekeepingRound r => Sys2Proof.Machine.execHousekeepingRound r s
  | .pmbusPoll r => Sys2Proof.Machine.execPmbusPoll r s
  | .avsbusCompletion r => Sys2Proof.Machine.execAvsbusCompletion r s
  | .graceExpiry => Sys2Proof.Machine.execGraceExpiry s
  | .ack a v => Sys2Proof.Machine.execAck a v s
  | .coolantWrite a v => Sys2Proof.Machine.execCoolantWrite a v s
  | .coolantStale => Sys2Proof.Machine.execCoolantStale s
  | .i3cZeroFlow => Sys2Proof.Machine.execI3cZeroFlow s
  | .pllOn a v => Sys2Proof.Machine.execPllOn a v s
  | .pllLocked c => Sys2Proof.Machine.execPllLocked c s
  | .clockMonitor f => Sys2Proof.Machine.execClockMonitor f s
  | .scFault c => Sys2Proof.Machine.execScFault c s
  | .scWatchdog => Sys2Proof.Machine.execScWatchdog s
  | .scRestart a v => Sys2Proof.Machine.execScRestart a v s
  | .logTake => Sys2Proof.Machine.execLogTake s
  | .rdseqWrite a v => Sys2Proof.Machine.execRdseqWrite a v s
  | .logClr a v => Sys2Proof.Machine.execLogClr a v s
  | .handoverGo a v => Sys2Proof.Machine.execHandoverGo a v s
  | .handoverAbort a v => Sys2Proof.Machine.execHandoverAbort a v s
  | .handoverLoaded => Sys2Proof.Machine.execHandoverLoaded s
  | .quiescentPoint => Sys2Proof.Machine.execQuiescentPoint s
  | .quiescenceTimeout => Sys2Proof.Machine.execQuiescenceTimeout s
  | .probationEnd => Sys2Proof.Machine.execProbationEnd s
  | .svngo a v => Sys2Proof.Machine.execSvngo a v s
  | .revgo a v => Sys2Proof.Machine.execRevgo a v s
  | .spdmRequest port r => Sys2Proof.Machine.execSpdmRequest port r s
  | .getMeasurements port index => Sys2Proof.Machine.execGetMeasurements port index s
  | .ideQuery port session => Sys2Proof.Machine.execIdeQuery port session s
  | .keyProg port session x => Sys2Proof.Machine.execKeyProg port session x s
  | .kSetGo port session x => Sys2Proof.Machine.execKSetGo port session x s
  | .kSetStop port session x => Sys2Proof.Machine.execKSetStop port session x s
  | .ideIntegrity port stream => Sys2Proof.Machine.execIdeIntegrity port stream s
  | .idcode => Sys2Proof.Machine.execIdcode s
  | .bypass => Sys2Proof.Machine.execBypass s
  | .samplePreload pins => Sys2Proof.Machine.execSamplePreload pins s
  | .extest => Sys2Proof.Machine.execExtest s
  | .challenge level => Sys2Proof.Machine.execChallenge level s
  | .unlock key signature => Sys2Proof.Machine.execUnlock key signature s
  | .challengeLockoutEnd => Sys2Proof.Machine.execChallengeLockoutEnd s
  | .debugRelock a v => Sys2Proof.Machine.execDebugRelock a v s
  | .cairnPowerup romOk calOk => Sys2Proof.Machine.execCairnPowerup romOk calOk s
  | .cairnRecord x => Sys2Proof.Machine.execCairnRecord x s
  | .cairnRomCheck ok => Sys2Proof.Machine.execCairnRomCheck ok s
  | .cairnPowerFail => Sys2Proof.Machine.execCairnPowerFail s
  | .cairnDipDetect rail data => Sys2Proof.Machine.execCairnDipDetect rail data s
  | .ident => Sys2Proof.Machine.execIdent s
  | .recall seq => Sys2Proof.Machine.execRecall seq s
  | .readerEvent number => Sys2Proof.Machine.execReaderEvent number s
  | .cairnFrameReceive payload crcOk => Sys2Proof.Machine.execCairnFrameReceive payload crcOk s
  | .cairnSilent => Sys2Proof.Machine.execCairnSilent s
  | .vglowLoss => Sys2Proof.Machine.execVglowLoss s
  | .railWarning m lowest durationNs => Sys2Proof.Machine.execRailWarning m lowest durationNs s
  | .guestLinkActive speed width => Sys2Proof.Machine.execGuestLinkActive speed width s
  | .guestOtherMessage isRead => Sys2Proof.Machine.execGuestOtherMessage isRead s
  | .timeNowRead port => Sys2Proof.Machine.execTimeNowRead port s
  | .scbeatAdvance => Sys2Proof.Machine.execScbeatAdvance s
  | .debugPortAccess x => Sys2Proof.Machine.execDebugPortAccess x s
  | .readerUnknownType type lenWrong => Sys2Proof.Machine.execReaderUnknownType type lenWrong s
  | .currentBeyondSensorRange rail data => Sys2Proof.Machine.execCurrentBeyondSensorRange rail data s
  | .cairnSensorFault data => Sys2Proof.Machine.execCairnSensorFault data s
  | .testNRelease => Sys2Proof.Machine.execTestNRelease s

end Sys2Proof.Machine
end

