-- ==== Sys2Proof/WellFormed.lean ====
section
/-! DEFINITION. Which commands can be given: the bounds that the spec sets to operands whose types do not say them. -/
namespace Sys2Proof

/-- A counter identifier's block and index (Table SYNC-1). -/
def Cnt.wf (c : Cnt) : Bool := decide (c.block < 0x1000) && decide (c.index < 256)

/-- A request lies in the 2 TiB of interleaved stack addresses (Table PKG-4), and a P stack takes none as a G stack. -/
def StackReq.wf (r : StackReq) : Bool := decide (r.addr < 0x3000000000 ∨ 0x4000000000 ≤ r.addr ∧ r.addr < 0x6000000000)

/-- Lanes in use by a link: 1, 2 or 4 (R288). -/
def widthWf (n : Nat) : Bool := n == 1 || n == 2 || n == 4

/-- Cycles of a unit on a link in use: 1, 2 or 4 (R288). -/
def cyclesWf (n : Nat) : Bool := n == 1 || n == 2 || n == 4

/-- The fields of a header unit (R298) and LEN + 1 whole lines of data; a transfer that a source error has cut has fewer and
no signal (R300). -/
def FabHeader.wf (x : FabHeader) (data : List Byte) : Bool :=
  decide (x.srcTile < 512) && decide (x.srcUnit < 16) && decide (x.stampStep < 2 ^ 16) && cyclesWf x.cycles &&
    (match x.len with
     | some n => decide (data.length % 64 = 0 ∧ data.length ≤ 64 * (n + 1)) &&
        (decide (data.length = 64 * (n + 1)) || x.signal.isNone)
     | none => data.isEmpty && x.signal.isSome)

/-- Margins of one channel fit the fields of MEMC_MARGINc. -/
def Margin.wf (m : Margin) : Bool :=
  decide (m.vhi < 256) && decide (m.vlo < 256) && decide (m.tright < 256) && decide (m.tleft < 256)

/-- The well-formed commands. -/
def Instr.wf : Instr → Bool
  | .counterAdd c => c.wf
  | .stackRequest r => r.wf
  | .stackRefresh k c b => decide (c < 32) && decide (b < if k.val < 4 then 48 else 32)
  | .marginDone _ m => decide (m.length = 32) && m.all Margin.wf
  | .linkUp _ r => widthWf r.peerWidth && decide (r.echoes.length ≤ 16)
  | .frameReceive _ (.good _ c) => c.width == 0 || widthWf c.width
  | .linkRealigned _ n => widthWf n
  | .fabricArrival _ x data => x.wf data
  | .ridgeRetestDone _ _ bad => bad.all fun l => decide (l < 68)
  | .guestLinkActive speed width => decide (1 ≤ speed ∧ speed ≤ 6) && decide (1 ≤ width ∧ width ≤ 3)
  | .bupStepDone ms r => decide (ms < 2 ^ 32) && r.margins.all fun x => decide (x.2.length = 32) && x.2.all Margin.wf
  | .keyProg _ _ x => decide (x.stream ≤ 4) && decide (x.sub ≤ 2)
  | .kSetGo _ _ x => decide (x.stream ≤ 4) && decide (x.sub ≤ 2)
  | .kSetStop _ _ x => decide (x.stream ≤ 4) && decide (x.sub ≤ 2)
  | .ideIntegrity _ stream => decide (stream ≤ 4)
  | .challenge level => level == 1 || level == 2
  | .unlock key signature => decide (key.length = 96) && decide (signature.length = 96)
  | .cairnRecord x => decide (x.raile.length = 9)
  | .cairnFrameReceive payload _ => decide (payload.length = 192)
  | .registerWrite x _ => decide (x.off < 0x2000000)
  | _ => true

end Sys2Proof
end

