-- ==== Sys2Proof/Safety.lean ====
section
/-! DEFINITION. What counts as a safe state and a safe step, and the terms that the statements use. -/
namespace Sys2Proof.Machine

/-- Every memory that a tile holds is in canonical form. -/
def Tile.MemWf (t : Tile) : Bool := t.store.wf && t.slice.wf

/-- Every memory of the device, of its hosts and of the guest, and every slice that a row repair rebuilds, is in
canonical form. -/
def State.MemWf (s : State) : Bool :=
  s.mem.wf && s.hostMem0.wf && s.hostMem1.wf && s.guestMem.wf && s.bup.imageRam.wf &&
    (s.tiles.all fun e => e.2.MemWf) && (s.grt.all fun e => e.2.ls.wf) &&
    s.bup.shifting.all fun e => e.2.slice.wf

/-- A step stops the machine. -/
def Stops (s : State) : Prop := ∀ t, step s ≠ .next t

/-- No byte of any memory differs: slices, tile stores, stacks, local stores, and the memories of hosts and guest. -/
def SameMemory (s t : State) : Prop :=
  (∀ i a, (memOf t i).read a = (memOf s i).read a) ∧ t.hostMem0 = s.hostMem0 ∧ t.hostMem1 = s.hostMem1 ∧
    t.guestMem = s.guestMem

/-- Byte `x` of memory `i` is one of the `len` bytes of memory `m` from `a` (all stacks are one address space). -/
def Touched (m : MemId) (a len : Nat) (i : MemId) (x : Nat) : Prop :=
  (match i, m with
    | .stack _, .stack _ => True
    | _, _ => i = m) ∧ a ≤ x ∧ x < a + len

/-- Among all bytes of all memories only those of `m` from `a` to `a + len - 1` may differ. -/
def SameMemoryBut (m : MemId) (a len : Nat) (s t : State) : Prop :=
  (∀ i x, ¬ Touched m a len i x → (memOf t i).read x = (memOf s i).read x) ∧
    t.hostMem0 = s.hostMem0 ∧ t.hostMem1 = s.hostMem1 ∧ t.guestMem = s.guestMem

/-! Units. -/

/-- Unit `u` issues instruction `c` on this cycle, from the code range `img`: it is the unit's turn, and the word at its PC,
read from a codeword free of errors, is `c`'s (R77, R78, R82, R116). -/
def Issues (c : Instr) (u : Agent) (s : State) (img : Img) : Prop :=
  turn s u = some (img, s.cyc) ∧ ∃ w, fetch u s = (some w, s) ∧ decodeAlori u w = some c

/-- Unit `u` issues `c`, and the residue check of R385 finds nothing. -/
def MayIssue (c : Instr) (u : Agent) (s : State) (img : Img) : Prop := Issues c u s img ∧ residueBad s u = false

/-- Another word of the code range follows (R118 step 8). -/
def NotLast (u : Agent) (s : State) (img : Img) : Prop := pcOf u s + 4 ≠ img.loadOff + img.codeSize

/-- The unit that an instruction runs on. -/
def unitOf : Instr → Option Agent
  | .add u _ | .sub u _ | .and u _ | .or u _ | .xor u _ | .sll u _ | .srl u _ | .sra u _ | .min u _ | .minu u _
  | .max u _ | .maxu u _ | .cmpeq u _ | .cmplt u _ | .cmpltu u _ | .mul u _ | .mulh u _ | .mulhu u _ | .clz u _
  | .popc u _ | .addi u _ | .andi u _ | .ori u _ | .xori u _ | .shi u _ | .movz u _ | .movk u _ | .beq u _ | .bne u _
  | .blt u _ | .bge u _ | .bltu u _ | .bgeu u _ | .jal u _ | .jalr u _ | .ld u _ | .lds u _ | .st u _ | .vld u _
  | .vst u _ | .vadd u _ | .vsub u _ | .vmul u _ | .vfma u _ | .vmax u _ | .vmin u _ | .vand u _ | .vor u _ | .vxor u _
  | .vsll u _ | .vsra u _ | .vcmpeq u _ | .vcmplt u _ | .vcmple u _ | .vsel u _ | .vbcast u _ | .vextr u _ | .vins u _
  | .vperm u _ | .vmovp u _ | .vmovg u _ | .vabs u _ | .vneg u _ | .vgetexp u _ | .vscale u _ | .vmov u _ | .vcvt u _
  | .exp2 u _ | .rcp u _ | .rsqrt u _ | .vredSum u _ | .vredMax u _ | .vredMin u _ | .vredAmax u _ | .vdot u _
  | .cadd u _ | .cwait u _ | .crd u _ | .crdf u _ | .crdh u _ | .csigl u _ | .cwaitl u _ | .cgbegin u _ | .cgcommit u _
  | .cgabort u _ | .cgstat u _ | .tpin u _ | .twr u _ | .kvapp u _ | .qpush u _ | .qpushn u _ | .qflush u _ | .qstat u _
  | .nop u _ | .endProg u _ | .rdstep u _ | .rdcyc u _ | .rdid u _ => some u
  | _ => none

/-- Steps 1 to 3 of R118 for a vector instruction. -/
def vecForm (u : Agent) (grotto reserved illegal : Bool) : Option Code :=
  firstOf [(!isSpur u && !grotto, .illegalOpcode), (reserved, .reservedBitSet), (illegal, .illegalValue)]

/-- Steps 1 to 3 of R118 for an instruction of spur contexts only. -/
def spurForm (u : Agent) (reserved : Bool) : Option Code :=
  firstOf [(!isSpur u, .illegalOpcode), (reserved, .reservedBitSet)]

/-- Steps 1 to 3 of R118 for a queue instruction. -/
def queueForm (u : Agent) (f : FmtQ) (reserved : Bool) : Option Code :=
  firstOf [(!isSpur u, .illegalOpcode), (reserved, .reservedBitSet), (decide (2 < f.ra.toNat), .illegalValue)]

/-- A register field of a vector instruction of three vector registers that names none of the unit's. -/
def badVs (u : Agent) (f : FmtV) : Bool := badV u f.vd || badV u f.va || badV u f.vb

/-- The code with which the word of an instruction halts its unit by its opcode and fields alone: ILLEGAL_OPCODE,
RESERVED_BIT_SET, ILLEGAL_VALUE, in the order of R118; `none` where the word is a legal instruction of the unit. -/
def formCode : Instr → Option Code
  | .add u f | .sub u f | .and u f | .or u f | .xor u f | .sll u f | .srl u f | .sra u f | .min u f | .minu u f
  | .max u f | .maxu u f | .cmpeq u f | .cmplt u f | .cmpltu u f | .mul u f | .mulh u f | .mulhu u f =>
    firstOf [(badG u f.rd || badG u f.ra || badG u f.rb, .illegalValue)]
  | .clz u f | .popc u f => firstOf [(f.rb != 0, .reservedBitSet), (badG u f.rd || badG u f.ra, .illegalValue)]
  | .addi u f | .andi u f | .ori u f | .xori u f | .jalr u f => firstOf [(badG u f.rd || badG u f.ra, .illegalValue)]
  | .shi u f =>
    firstOf [(f.imm.toNat / 256 != 0, .reservedBitSet),
      (bitsOf f.imm.toNat 7 6 == 3 || badG u f.rd || badG u f.ra, .illegalValue)]
  | .movz u f | .movk u f =>
    firstOf [(decide (3 < f.ra.toNat), .reservedBitSet),
      (badG u f.rd || (!isSpur u && decide (1 < f.ra.toNat % 4)), .illegalValue)]
  | .beq u f | .bne u f | .blt u f | .bge u f | .bltu u f | .bgeu u f => firstOf [(badG u f.ra || badG u f.rb, .illegalValue)]
  | .ld u f | .lds u f => firstOf [(badScalarLoad u f, .illegalValue)]
  | .st u f => firstOf [(badScalarStore u f, .illegalValue)]
  | .vld u f => firstOf [(f.p != 0, .reservedBitSet), (badVectorLoad u f, .illegalValue)]
  | .vst u f => firstOf [(badVectorStore u f, .illegalValue)]
  | .vadd u f | .vsub u f | .vmul u f | .vmax u f | .vmin u f => vecForm u true false (vecIllegal u f || badVs u f)
  | .vfma u f => vecForm u true false (vecIllegal u f || !laneFloat f.t || badVs u f)
  | .vand u f | .vor u f | .vxor u f | .vsll u f | .vsra u f => vecForm u true false (vecIllegal u f || laneFloat f.t || badVs u f)
  | .vabs u f | .vneg u f | .vmov u f => vecForm u true (f.vb != 0) (vecIllegal u f || badVs u f)
  | .vcmpeq u f | .vcmplt u f | .vcmple u f =>
    vecForm u false (decide (7 < f.vd.toNat) || (f.s && !laneFloat f.t)) (vecIllegal u f)
  | .vsel u f => vecForm u false false (vecIllegal u f)
  | .vbcast u f => vecForm u true (f.vb != 0) (vecIllegal u f || badV u f.vd || badG u f.va)
  | .vextr u f =>
    vecForm u true (f.pm != 0 || (f.s && !laneFloat f.t)) (vecIllegal u f || badG u f.vd || badV u f.va || badG u f.vb)
  | .vins u f => vecForm u true (f.pm != 0) (vecIllegal u f || badV u f.vd || badG u f.va || badG u f.vb)
  | .vperm u f => vecForm u true false (vecIllegal u f || badVs u f)
  | .vmovp u f => vecForm u false (decide (7 < f.vd.toNat) || f.vb != 0 || f.pm != 0 || f.s || f.t != 0) false
  | .vmovg u f => vecForm u false (decide (7 < f.va.toNat) || f.vb != 0 || f.pm != 0 || f.s || f.t != 0) false
  | .vgetexp u f => vecForm u true (f.vb != 0) (f.t != 7 || vecIllegal u f || badV u f.vd || badV u f.va)
  | .vscale u f => vecForm u true false (f.t != 7 || vecIllegal u f || badVs u f)
  | .vcvt u f =>
    let sw := laneBits f.t
    let dw := laneBits (f.vb.setWidth 3)
    vecForm u true (f.pm != 0)
      (badLane u f.t || badLane u (f.vb.setWidth 3) || decide ((if sw ≤ dw then dw / sw else sw / dw) ≤ f.vb.toNat / 8)
        || badV u f.vd || badV u f.va)
  | .exp2 u f | .rcp u f => vecForm u true (f.vb != 0) (f.t != 7 || f.s || badPred u f.pm || badV u f.vd || badV u f.va)
  | .rsqrt u f => vecForm u false (f.vb != 0) (f.t != 7 || f.s || badPred u f.pm || badV u f.vd || badV u f.va)
  | .vredSum u f | .vredMax u f | .vredMin u f | .vredAmax u f =>
    vecForm u true (f.vb != 0) (vecIllegal u f || badG u f.vd || badV u f.va)
  | .vdot u f => vecForm u true false (f.t == 2 || f.t == 7 || vecIllegal u f || badVs u f)
  | .cadd u f => firstOf [(f.rd != 0 || f.rc != 0, .reservedBitSet), (badG u f.ra || badG u f.rb, .illegalValue)]
  | .cwait u f => firstOf [(f.rd != 0, .reservedBitSet), (badG u f.ra || badG u f.rb || badG u f.rc, .illegalValue)]
  | .crd u f | .crdf u f => firstOf [(f.rb != 0 || f.rc != 0, .reservedBitSet), (badG u f.rd || badG u f.ra, .illegalValue)]
  | .crdh u f =>
    firstOf [(isSpur u, .illegalOpcode), (f.rb != 0 || f.rc != 0, .reservedBitSet),
      (badG u f.rd || badG u f.ra, .illegalValue)]
  | .csigl _ f =>
    firstOf [(f.rd != 0 || f.ra != 0 || f.imm.getLsbD 7, .reservedBitSet), (bitsOf f.imm.toNat 15 8 == 0, .illegalValue)]
  | .cwaitl u f => firstOf [(f.rd != 0 || decide (128 ≤ f.imm.toNat), .reservedBitSet), (badG u f.ra, .illegalValue)]
  | .cgbegin u f | .cgstat u f => spurForm u (f.ra != 0 || f.rb != 0 || f.rc != 0)
  | .cgcommit u f | .tpin u f => spurForm u (f.rd != 0 || f.rb != 0 || f.rc != 0)
  | .cgabort u f => spurForm u (f.rd != 0 || f.ra != 0 || f.rb != 0 || f.rc != 0)
  | .twr u f | .kvapp u f => spurForm u (f.rd != 0 || f.rc != 0)
  | .qpush u f => queueForm u f (f.rd != 0 || f.rc != 0)
  | .qpushn u f => queueForm u f (f.rc != 0)
  | .qflush u f => queueForm u f (f.rd != 0 || f.rb != 0 || f.rc != 0)
  | .qstat u f => queueForm u f (f.rb != 0 || f.rc != 0)
  | .nop _ f | .endProg _ f => firstOf [(f.rd != 0 || f.ra != 0 || f.rb != 0, .reservedBitSet)]
  | .rdstep u f | .rdcyc u f | .rdid u f => spurForm u (f.ra != 0 || f.rb != 0)
  | _ => none

/-- The state that instruction `c` of unit `u` leaves, given what it does: the issue times of the unit and its core are noted
(R77, R78), and where the debug port holds the unit, one granted step is used up (R445). -/
def granted (c : Instr) (u : Agent) (s t : State) : State := finish u (some c) s t

/-- The scalar registers of `u` with `v` in `rd`; g0 reads as zero. -/
def withG (u : Agent) (s : State) (rd : BitVec 5) (v : Nat) (r : BitVec 5) : Nat :=
  if r = 0 then 0 else if r = rd then v else getG u s r
/-- The vector registers of `u` with `v` in `vd`. -/
def withV (u : Agent) (s : State) (vd : BitVec 5) (v : Nat) (r : BitVec 5) : Nat := if r = vd then v else getV u s r
/-- The predicate registers of `u` with `v` in `pd`; p0 reads as ones. -/
def withP (u : Agent) (s : State) (pd : Nat) (v : Word) (p : Nat) : Word :=
  if p = 0 then Word.mask 63 0 else if p = pd then v else getP u s p

/-- Nothing of the machine differs but the registers, the PC and the issue times of unit `u` (and, of its tile, the roost
record and the granted debug steps): every other register, counter, queue, group, memory and log is as before. -/
def OnlyUnitRegs (u : Agent) (s t : State) : Prop :=
  match u with
  | .spur l n => ∃ pc g v p,
      t = { spendStep (debugKey l n) s (setCtxAt s l n { ctxAt s l n with pc := pc, g := g, v := v, p := p }) with
        boards := t.boards, cores := t.cores }
  | .grotto k => ∃ pc g w,
      t = { s.setGrotto k { s.grotto k with pc := pc, g := g, w := w } with boards := t.boards, cores := t.cores }

/-- What an instruction that works on registers alone leaves: its unit at `pc` with the registers `gs`, `vs` and
`ps`; no byte of memory and nothing else differs. -/
def UnitResult (u : Agent) (s t : State) (pc : Nat) (gs vs : BitVec 5 → Nat) (ps : Nat → Word) : Prop :=
  pcOf u t = pc ∧ (∀ r, getG u t r = gs r) ∧ (∀ r, getV u t r = vs r) ∧ (∀ p, getP u t p = ps p) ∧
    SameMemory s t ∧ OnlyUnitRegs u s t

/-- An instruction that writes scalar register `rd` and goes on at PC + 4. -/
def WritesG (c : Instr) (u : Agent) (s : State) (rd : BitVec 5) (v : Nat) : Prop :=
  ∃ t, exec c s = .next t ∧ UnitResult u s t (pcOf u s + 4) (withG u s rd v) (getV u s) (getP u s)
/-- An instruction that writes vector register `vd` and goes on at PC + 4. -/
def WritesV (c : Instr) (u : Agent) (s : State) (vd : BitVec 5) (v : Nat) : Prop :=
  ∃ t, exec c s = .next t ∧ UnitResult u s t (pcOf u s + 4) (getG u s) (withV u s vd v) (getP u s)
/-- An instruction that writes predicate register `pd` and goes on at PC + 4. -/
def WritesP (c : Instr) (u : Agent) (s : State) (pd : Nat) (v : Word) : Prop :=
  ∃ t, exec c s = .next t ∧ UnitResult u s t (pcOf u s + 4) (getG u s) (getV u s) (withP u s pd v)
/-- An instruction that changes only the PC. -/
def GoesTo (c : Instr) (u : Agent) (s : State) (pc : Nat) : Prop :=
  ∃ t, exec c s = .next t ∧ UnitResult u s t pc (getG u s) (getV u s) (getP u s)

/-! Accesses. -/

/-- The memory and the place in it of byte `a` of space `sp` of a unit: TS or SL of a spur core, LS or BK of a grotto
core. -/
def accessAt (u : Agent) (s : State) (sp a : Nat) : MemId × Nat :=
  match u with
  | .spur l _ => (if sp = 0 then .store (tileAt s l) else .slice (tileAt s l), a)
  | .grotto k => if sp = 0 then (.ls k, a) else (.stack (4 + k.val / 128), bkAddr k a)

/-- An access to TS or SL, LS or BK that is in range (R95, R242) and aligned (R96). -/
def accessFits (u : Agent) (s : State) (sp a len : Nat) : Prop :=
  sp ≤ 1 ∧ a % len = 0 ∧
    match u with
    | .spur _ _ => a + len ≤ (if sp = 0 then 0x400000 else 0x10000000)
    | .grotto k => a + len ≤ (if sp = 0 then 0x10000 else 0x10000000) ∧ (sp = 1 → bkAllowed s k a = true)

/-- A BK access of a core whose bank group runs a refresh operation waits at its boundary (R252). -/
def accessWaits (u : Agent) (s : State) (sp : Nat) : Bool :=
  match u with
  | .spur _ _ => false
  | .grotto k => sp == 1 && (s.grotto k).running != 0

/-- The state in which an access is made: a BK access has entered its stack's activation window (R248). -/
def accessState (u : Agent) (s : State) (sp : Nat) : State :=
  match u with
  | .spur _ _ => s
  | .grotto k => if sp = 1 then noteBk k s else s

/-- The bytes that a unit's load sees, given the bytes `bs` that the memory delivers: where the context's own open
commit group has staged a byte, that one (R135). -/
def seen (u : Agent) (s : State) (sp a : Nat) (bs : List Byte) : List Byte :=
  match u with
  | .spur l n => overlay (openGroup s l n) (if sp = 0 then .ts else .sl) a bs
  | .grotto _ => bs

/-- The group of a unit's stores and adds. -/
def unitGroup (u : Agent) (s : State) : Option Group := stagingGroup u s

/-- Only what an access can change beside registers and memory differs: tiles, cores, issue times, registers of the RAS and
memory blocks, the activation windows, error patterns, the glow log, vectors. -/
def OnlyAccess (s t : State) : Prop :=
  t = { s with tiles := t.tiles, roost := t.roost, grt := t.grt, sec := t.sec, regs := t.regs, mem := t.mem, ecc := t.ecc
               glow := t.glow, port0 := t.port0, port1 := t.port1, sent := t.sent, boards := t.boards, cores := t.cores
               memStacks := t.memStacks }

/-- What a load of `len` bytes at `a` of space `sp` does, `conv` giving the value from the bytes, `gs` and `vs` the registers
from the value: with clean codewords it changes registers alone; with corrected ones also the drip counters and their
reports; an uncorrectable one halts the unit with ECC_UNCORRECTED after its report (R84, R226, R227). A BK access that must
wait leaves the machine as it is (R252). -/
def LoadDoes (c : Instr) (u : Agent) (s : State) (sp a len : Nat) (gs vs : Nat → BitVec 5 → Nat) (conv : List Byte → Nat) : Prop :=
  let m := (accessAt u s sp a).1
  let x := (accessAt u s sp a).2
  let s1 := accessState u s sp
  let bytes := seen u s sp a (delivered s m x ((memOf s m).readBytes x len))
  if accessWaits u s sp then exec c s = .next s
  else
    match (codewords s m x len).find? fun k => eccCheck s m k == .bad with
    | some k =>
      exec c s = .next (granted c u s (haltUnit u .eccUncorrected (reportUncorrected m k (unitPart s u)
        (dripAdd (memDrip m x) (memSrc m) (memHolder s m x)
          ((codewords s m x len).countP fun k => eccCheck s m k == .corrected) s1))))
    | none =>
      ∃ t, exec c s = .next t ∧ pcOf u t = pcOf u s + 4 ∧ (∀ r, getG u t r = gs (conv bytes) r) ∧
        (∀ r, getV u t r = vs (conv bytes) r) ∧ (∀ p, getP u t p = getP u s p) ∧ SameMemory s t ∧ OnlyAccess s t ∧
        ((∀ k ∈ codewords s m x len, eccCheck s m k = .clean) →
          bytes = seen u s sp a ((memOf s m).readBytes x len) ∧ OnlyUnitRegs u s1 t)

/-- What a store of `len` bytes of `val` at `a`, those that `mask` selects, does outside a commit group: those bytes,
no other byte of any memory, no register of the unit but the PC. A BK access that must wait leaves the machine as it is. -/
def StoreDoes (c : Instr) (u : Agent) (s : State) (sp a len val : Nat) (mask : Nat → Bool) : Prop :=
  let m := (accessAt u s sp a).1
  let x := (accessAt u s sp a).2
  if accessWaits u s sp then exec c s = .next s
  else
    ∃ t, exec c s = .next t ∧ pcOf u t = pcOf u s + 4 ∧ (∀ r, getG u t r = getG u s r) ∧ (∀ r, getV u t r = getV u s r) ∧
      (∀ p, getP u t p = getP u s p) ∧
      (∀ i, i < len → (memOf t m).read (x + i) =
        if mask i then BitVec.ofNat 8 (val >>> (8 * i)) else (memOf s m).read (x + i)) ∧
      SameMemoryBut m x len s t ∧
      t = { accessState u s sp with
        tiles := t.tiles, roost := t.roost, grt := t.grt, sec := t.sec, regs := t.regs, mem := t.mem, ecc := t.ecc
        boards := t.boards, cores := t.cores }

/-- The unit's scalar register as a bit vector of the unit's width. -/
def gBits (u : Agent) (s : State) (r : BitVec 5) : BitVec (gWidth u) := BitVec.ofNat _ (getG u s r)

/-! Commands that are no instructions. -/

/-- The command runs to a next state of which `P` holds. -/
def Leads (c : Instr) (s : State) (P : State → Prop) : Prop := ∃ t, exec c s = .next t ∧ P t

/-- Nothing but physical tile `h` (and its roost record) differs from `s` at cycle `c`. -/
def OnlyTileAt (h c : Nat) (s t : State) : Prop :=
  t = { s.upTo c with tiles := t.tiles, roost := t.roost } ∧ ∀ j, j ≠ h → t.tile j = s.tile j

/-- A queue whose head has started as `f` on cycle `c` (R90). -/
def Queue.started (q : Queue) (f : Flight) (c : Nat) : Queue :=
  { q with held := q.held.drop 1, headReady := false, headMet := none, wake := none, headFree := c + 1
           flights := q.flights ++ [f] }

/-- A queue whose `i`-th command in flight `f` has completed: it leaves once those before it have left, unless a signal
waits to fire (R92); a flush that waited for it ends (R94). -/
def Queue.finished (q : Queue) (i : Nat) (f : Flight) : Queue :=
  Queue.settled { q with flights := dropSilent (q.flights.set i { f with done := true }) }

/-- The bytes of ranges of a memory, joined. -/
def rangeBytes (m : Mem) (r : List (Nat × Nat)) : List Byte := r.flatMap fun x => m.readBytes x.1 x.2

/-! Commands that are register writes by a host. -/

/-- A register write by a host: the access, the register, who may write it, the value, and the bit whose 1 gives the
command where one does. -/
structure HostCmd where
  a : Acc
  b : Blk
  o : Nat
  d : RegDesc
  who : Admit
  v : Word
  bit : Option Nat

/-- The write with the bit that gives the command. -/
def HostCmd.mk' (a : Acc) (b : Blk) (o : Nat) (d : RegDesc) (who : Admit) (v : Word) (k : Nat) : HostCmd :=
  ⟨a, b, o, d, who, v ||| BitVec.ofNat 64 (2 ^ k), some k⟩

/-- The function that writes RST_REQ for a scope (R377): the steward, or the owner of the tile's or cluster's
partition. -/
def resetWriter (s : State) (a : Acc) (v : Word) : Admit :=
  let new := mergeWrite dRstReq (halfBits a.half) (rg s .rst rRstReq) (v &&& halfBits a.half)
  if a.port == stewardPort s then .steward
  else match (scopeOf new).bind scopeCluster with
    | some r => .owner (partOfCluster s r)
    | none => .steward

/-- The register write that a command is. -/
def hostCmd (s : State) : Instr → Option HostCmd
  | .xltinv a p v => some (.mk' a (.kvp p) rKvpXltinv dKvpXltinv (.ownerVf p) v 63)
  | .loadTrv a p v => some (.mk' a (.part p) rPartTrvctrl dPartTrvctrl (.ownerVf p) v 0)
  | .runTrv a p v => some (.mk' a (.part p) rPartTrvctrl dPartTrvctrl (.ownerVf p) v 1)
  | .stopTrv a p v => some (.mk' a (.part p) rPartTrvctrl dPartTrvctrl (.ownerVf p) v 2)
  | .unloadTrv a p v => some (.mk' a (.part p) rPartTrvctrl dPartTrvctrl (.ownerVf p) v 3)
  | .partRunEpoch a p v => some ⟨a, .part p, rPartRunepoch, dPartRunepoch, .ownerVf p, v, none⟩
  | .diag a h v => some (.mk' a (.tile h) rTileMxCtrl dTileMxCtrl (tileOwner s h) v 3)
  | .ctxRestart a h v => some ⟨a, .tile h, rTileCtxCtrl, dTileCtxCtrl, tileOwner s h, v, none⟩
  | .flush a h v => some ⟨a, .tile h, rTileQCtrl, dTileQCtrl, tileOwner s h, v, none⟩
  | .slScrubStart a h v => some (.mk' a (.tile h) rTileSlScrub dTileSlScrub (tileOwner s h) v 0)
  | .slScrubStop a h v => some (.mk' a (.tile h) rTileSlScrub dTileSlScrub (tileOwner s h) v 1)
  | .memcScrubStart a k v => some (.mk' a (.memc k) rMemcScrub dMemcScrub .steward v 0)
  | .memcScrubStop a k v => some (.mk' a (.memc k) rMemcScrub dMemcScrub .steward v 1)
  | .slRowret a h v => some (.mk' a (.tile h) rTileSlRowret dTileSlRowret (tileOwner s h) v 63)
  | .bankret a k v => some (.mk' a (.memc k) rMemcBankret dMemcBankret .steward v 63)
  | .tileInjArm a h v => some (.mk' a (.tile h) rTileInjaddr dTileInjaddr (tileOwner s h) v 63)
  | .tileInjRawrd a h v => some (.mk' a (.tile h) rTileInjaddr dTileInjaddr (tileOwner s h) v 62)
  | .memcInjArm a k v => some (.mk' a (.memc k) rMemcInjaddr dMemcInjaddr .steward v 63)
  | .memcInjRawrd a k v => some (.mk' a (.memc k) rMemcInjaddr dMemcInjaddr .steward v 62)
  | .marginStart a k v => some (.mk' a (.memc k) rMemcMargctrl dMemcMargctrl .steward v 0)
  | .slclr a h v => some (.mk' a (.tile h) rTileDrip dTileDrip (tileOwner s h) v 0)
  | .tsclr a h v => some (.mk' a (.tile h) rTileDrip dTileDrip (tileOwner s h) v 1)
  | .memcDripClr a k c v => some (.mk' a (.memc k) (rMemcDripc c) dMemcDripc .steward v 0)
  | .grtCdripClr a k v => some (.mk' a (.grt (k / 128)) (rGrtCdripk (k % 128)) dGrtCdripk .steward v 0)
  | .dripcfgWrite a (.tile h) v => some ⟨a, .tile h, rTileDripcfg, dTileDripcfg, tileOwner s h, v, none⟩
  | .dripcfgWrite a (.memc k) v => some ⟨a, .memc k, rMemcDripcfg, dMemcDripcfg, .steward, v, none⟩
  | .dripcfgWrite a (.grt g) v => some ⟨a, .grt g, rGrtDripcfg, dGrtDripcfg, .steward, v, none⟩
  | .launch a k v => some (.mk' a (.grt (k / 128)) (rGrtCctrlk (k % 128)) dGrtCctrlk .steward v 2)
  | .grtRestart a k v => some (.mk' a (.grt (k / 128)) (rGrtCctrlk (k % 128)) dGrtCctrlk .steward v 0)
  | .grtMode a g v => some ⟨a, .grt g, rGrtMode, dGrtMode, .steward, v, none⟩
  | .peakclr a g v => some (.mk' a (.grt g) rGrtMode dGrtMode .steward v 1)
  | .linkEn a l v => some ⟨a, .fab, rFabLinkctrll l, dFabLinkctrll, .steward, v, none⟩
  | .retrain a l v => some (.mk' a .fab (rFabLinkctrll l) dFabLinkctrll .steward v 1)
  | .relock a l v => some (.mk' a .fab (rFabLinkctrll l) dFabLinkctrll .steward v 2)
  | .timeSet a v => some ⟨a, .time, rTimeSet, dTimeSet, .steward, v, none⟩
  | .timeE0 a v => some ⟨a, .time, rTimeE0, dTimeE0, .steward, v, none⟩
  | .hvcAdd a g i v => some ⟨a, .hvc g, rHvcAdd i, dHvcAdd,
      match partOfGroup s g with | some p => .ownerVf p | none => .owner none, v, none⟩
  | .hbeat a v => some ⟨a, .hif a.port, rHifHbeat, dHifHbeat,
      if a.port == stewardPort s then .self a.port else .steward, v, none⟩
  | .claim a v => some (.mk' a (.hif a.port) rHifSteward dHifSteward (.self a.port) v 7)
  | .deviceCommit a v => some (.mk' a (.hif a.port) rHifPcommit dHifPcommit .steward v 63)
  | .pcommitDiscard a v => some (.mk' a (.hif a.port) rHifPcommit dHifPcommit .steward v 62)
  | .partCommit a p v => some (.mk' a (.part p) rPartCommit dPartCommit (.ownerVf p) v 63)
  | .partDiscard a p v => some (.mk' a (.part p) rPartCommit dPartCommit (.ownerVf p) v 62)
  | .rstside a m v => some ⟨a, .d2d, rD2dModctrlm m, dD2dModctrlm, .steward, v, none⟩
  | .greset a v => some ⟨a, .gst, rGstCtrl, dGstCtrl,
      if (v &&& halfBits a.half).bit 0 && !Config.variantG then .noOne else .steward, v, none⟩
  | .gstCommit a v => some (.mk' a .gst rGstCommit dGstCommit .steward v 63)
  | .gstDiscard a v => some (.mk' a .gst rGstCommit dGstCommit .steward v 62)
  | .bupGo a v => some (.mk' a .bup rBupCtrl dBupCtrl .steward v 63)
  | .bupSkip a v => some (.mk' a .bup rBupCtrl dBupCtrl .steward v 62)
  | .saveRecord a v => some (.mk' a .bup rBupTrrec dBupTrrec .steward v 0)
  | .tileReset a v =>
    let w := v.put 59 58 0 ||| BitVec.ofNat 64 (2 ^ 63)
    some ⟨a, .rst, rRstReq, dRstReq, resetWriter s a w, w, some 63⟩
  | .clusterReset a v =>
    let w := v.put 59 58 1 ||| BitVec.ofNat 64 (2 ^ 63)
    some ⟨a, .rst, rRstReq, dRstReq, resetWriter s a w, w, some 63⟩
  | .deviceReset a v =>
    let w := v.put 59 58 3 ||| BitVec.ofNat 64 (2 ^ 63)
    some ⟨a, .rst, rRstReq, dRstReq, resetWriter s a w, w, some 63⟩
  | .partReset a p v => some (.mk' a (.part p) rPartReset dPartReset (.ownerVf p) v 63)
  | .ack a v => some (.mk' a .thm rThmSlow dThmSlow .steward v 8)
  | .coolantWrite a v => some ⟨a, .thm, rThmCoolant, dThmCoolant, .steward, v, none⟩
  | .pllOn a v => some ⟨a, .clk, rClkPll, dClkPll, .steward, v, none⟩
  | .scRestart a v => some (.mk' a .ras rRasScctrl dRasScctrl .anyPF0 v 0)
  | .rdseqWrite a v => some ⟨a, .ras, rLogRdseq, dLogRdseq, .steward, v, none⟩
  | .logClr a v => some (.mk' a .ras rLogCtrl dLogCtrl .steward v 63)
  | .handoverGo a v => some (.mk' a .sec rSecHoctrl dSecHoctrl .steward v 63)
  | .handoverAbort a v => some (.mk' a .sec rSecHoctrl dSecHoctrl .steward v 62)
  | .svngo a v => some (.mk' a .sec rSecFusectrl dSecFusectrl .steward v 63)
  | .revgo a v => some (.mk' a .sec rSecFusectrl dSecFusectrl .steward v 62)
  | .debugRelock a v => some ⟨a, .sec, rSecDbgctrl, dSecDbgctrl, .steward, v, none⟩
  | _ => none

/-- Why a host's register write is rejected before its register's own rules are asked (R474): the code of the common
checks. -/
def HostCmd.refused (x : HostCmd) (s : State) : Option Code := commonChecks x.a x.d x.who x.v s

/-- The state of the device as a whole turns the write away with WRONG_STATE: a fence runs (R323), or R358, R379, R389
and R434 say so. -/
def HostCmd.gated (x : HostCmd) (s : State) : Bool := (fencing s && x.who == .steward) || stateGate s x.b x.o

/-- The register's fields after the write (R8, R12). -/
def HostCmd.fields (x : HostCmd) (s : State) : Word :=
  mergeWrite x.d (halfBits x.a.half) (rg s x.b x.o) (x.v &&& halfBits x.a.half)

/-- Whether the access reaches the command bit. -/
def HostCmd.reaches (x : HostCmd) : Bool :=
  match x.bit with
  | some k => (halfBits x.a.half).bit k
  | none => true

/-- The state with the register's fields as the write leaves them, where nothing but the register's own rules can
still reject the write. -/
def taken (c : Instr) (s : State) : Option State :=
  match hostCmd s c with
  | some x =>
    if (x.refused s).isNone && !x.gated s && x.reaches then
      some (if x.fields s = rg s x.b x.o then s else rset s x.b x.o (x.fields s))
    else none
  | none => none

/-- The glow log as an event at source `src` leaves it (R396). -/
def Reported (src : Nat) (c : Code) (data : Nat) (s y : State) : Prop := y.glow = (logEvent src c data s).glow

/-- What the check of the codeword that byte `x` of stack `k` lies in finds. -/
def byteCheck (s : State) (k x : Nat) : EccResult :=
  eccCheck s (.stack k) (x / cwSize s (.stack k) x * cwSize s (.stack k) x)
/-- `n` bytes of a stack lie in clean codewords. -/
def CleanBytes (s : State) (k x n : Nat) : Prop := ∀ j, j < n → byteCheck s k (x + j) = .clean

/-- The value that the access writes to the register's bits. -/
def valueOf (a : Acc) (v : Word) : Word := v &&& halfBits a.half

end Sys2Proof.Machine
end

