-- ==== Sys2Proof/Certificates/Slice0/Obligations.lean ====
section
/-! DEFINITION. The statements for the provers. -/
open Sys2Proof Sys2Proof.Machine

/-! The machine. -/

/-- With a command at the front of the queue, a step executes it with the queue's rest (log entry 1). -/
def Obligations.StepRunsFront : Prop :=
  ∀ (c : Instr) (q : List Instr) (s : State), step { s with pending := c :: q } = exec c { s with pending := q }

/-- No command changes the queue; on an empty queue the device idles, which is the model's choice (log entry 1). -/
def Obligations.CommandQueue : Prop :=
  (∀ (c : Instr) (s t : State), exec c s = .next t → t.pending = s.pending) ∧
  (∀ s : State, s.pending = [] → step s = .next s)

/-! Alori instructions: the words that halt their unit. -/

/-- Halting (R84, R86, R143, R246): the unit is HALTED with the code and its PC at the instruction; its registers
are as they were; an open commit group of the context is discarded with CG_ABORT_FAULT; no byte of memory changes;
the code goes to the glow log at the tile's, or the core's, source. -/
def HaltingUnit : Prop :=
  (∀ (l : Fin 512) (n : Fin 8) (c : Code) (s : State),
    let h := tileAt s l
    let t := haltUnit (.spur l n) c s
    let x := (s.tile h).ctxOf n
    let y := (t.tile h).ctxOf n
    y = { x with st := .halted, code := c, wait := .none
                 cgCode := if (openGroup s l n).isSome then .cgAbortFault else x.cgCode } ∧
    (t.tile h).group = (if (openGroup s l n).isSome then none else (s.tile h).group) ∧
    (∀ m, m ≠ n.val → (t.tile h).ctxOf m = (s.tile h).ctxOf m) ∧
    (∀ j, j ≠ h → t.tile j = s.tile j) ∧
    SameMemory s t ∧ t.grt = s.grt ∧
    (s.glow.pend.has (srcTile h) = false →
      SMap.get ⟨0, 0, 0⟩ t.glow.pend (srcTile h) = ⟨srcTile h, c, l.val + 2 ^ 12 * n.val + 2 ^ 32 * x.pc⟩)) ∧
  (∀ (k : Fin 512) (c : Code) (s : State),
    let t := haltUnit (.grotto k) c s
    t.grotto k = { s.grotto k with st := .halted, code := c, wait := .none } ∧
    (∀ j, j ≠ k.val → t.grotto j = s.grotto j) ∧ SameMemory s t ∧ t.tiles = s.tiles ∧
    (s.glow.pend.has (srcGrotto k) = false →
      SMap.get ⟨0, 0, 0⟩ t.glow.pend (srcGrotto k) =
        ⟨srcGrotto k, c, k.val + 2 ^ 12 * 0xB + 2 ^ 32 * (s.grotto k).pc⟩))

/-- An instruction word that its unit does not accept halts the unit with the first code of R118 steps 1 to 3, and
has no other effect; so does a word that defines no instruction (R117, R118), and a word whose codeword cannot be corrected
(R116). A unit that cannot issue leaves the machine as it is: not READY, its cluster paused or in reset, held by the debug
port, or another context's turn (R77, log entry 10); so does an instruction that does not stand at the unit's PC (log entry
96). An instruction whose cycle is still to come is issued on that cycle. -/
def IllegalWordHalts : Prop :=
  (∀ (c : Instr) (u : Agent) (s : State) (img : Img) (e : Code),
    unitOf c = some u → Issues c u s img → formCode c = some e →
      exec c s = .next (granted c u s (haltUnit u e s))) ∧
  (∀ (c : Instr) (u : Agent) (s : State), unitOf c = some u → turn s u = none → exec c s = .next s) ∧
  (∀ (c d : Instr) (u : Agent) (s : State) (img : Img), unitOf c = some u → Issues d u s img → c ≠ d → exec c s = .next s) ∧
  (∀ (c : Instr) (u : Agent) (s : State) (img : Img) (w : BitVec 32), unitOf c = some u → turn s u = some (img, s.cyc) →
    fetch u s = (some w, s) → decodeAlori u w = none →
      exec c s = .next (finish u none s (haltUnit u (noInstrCode w) s))) ∧
  (∀ (c : Instr) (u : Agent) (s : State) (img : Img) (t : State), unitOf c = some u → turn s u = some (img, s.cyc) →
    fetch u s = (none, t) → exec c s = .next (finish u none s (haltUnit u .eccUncorrected t))) ∧
  (∀ (c : Instr) (u : Agent) (s : State) (img : Img) (k : Nat), unitOf c = some u → turn s u = some (img, k) →
    turn (s.upTo k) u = some (img, k) → exec c s = exec c (s.upTo k))

/-- What halting a unit does, and the words that halt it. -/
def Obligations.Halts : Prop := HaltingUnit ∧ IllegalWordHalts

/-! Scalar instructions. -/

/-- An operation on two scalar registers, of spur contexts (`spur`) or of grotto cores. -/
def ScalarOp (spur : Bool) (c : Agent → FmtA → Instr) (op : (w : Nat) → BitVec w → BitVec w → BitVec w) : Prop :=
  ∀ (u : Agent) (f : FmtA) (s : State) (img : Img),
    isSpur u = spur → MayIssue (c u f) u s img → NotLast u s img → formCode (c u f) = none →
      WritesG (c u f) u s f.rd (op (gWidth u) (gBits u s f.ra) (gBits u s f.rb)).toNat

/-- The scalar operations of Table ALR-3 on the unit's width (64 bits in a spur core, 32 in a grotto core, R159):
the value that rd takes, with the PC, every other register and all memory as R117 and R119 leave them. -/
def ScalarOperations (spur : Bool) : Prop :=
  ScalarOp spur .add (fun _ a b => a + b) ∧ ScalarOp spur .sub (fun _ a b => a - b) ∧
  ScalarOp spur .and (fun _ a b => a &&& b) ∧ ScalarOp spur .or (fun _ a b => a ||| b) ∧ ScalarOp spur .xor (fun _ a b => a ^^^ b) ∧
  ScalarOp spur .sll (fun w a b => a <<< (b.toNat % w)) ∧ ScalarOp spur .srl (fun w a b => a >>> (b.toNat % w)) ∧
  ScalarOp spur .sra (fun w a b => a.sshiftRight (b.toNat % w)) ∧
  ScalarOp spur .min (fun _ a b => if a.sle b then a else b) ∧ ScalarOp spur .minu (fun _ a b => if a.ule b then a else b) ∧
  ScalarOp spur .max (fun _ a b => if a.sle b then b else a) ∧ ScalarOp spur .maxu (fun _ a b => if a.ule b then b else a) ∧
  ScalarOp spur .cmpeq (fun w a b => if a = b then 1#w else 0#w) ∧
  ScalarOp spur .cmplt (fun w a b => if a.slt b then 1#w else 0#w) ∧
  ScalarOp spur .cmpltu (fun w a b => if a.ult b then 1#w else 0#w) ∧
  ScalarOp spur .mul (fun _ a b => a * b) ∧
  ScalarOp spur .mulh (fun w a b => BitVec.ofInt w (a.toInt * b.toInt / 2 ^ w)) ∧
  ScalarOp spur .mulhu (fun w a b => BitVec.ofNat w (a.toNat * b.toNat / 2 ^ w)) ∧
  ScalarOp spur .clz (fun w a _ => BitVec.ofNat w ((List.range w).takeWhile fun i => !a.getMsbD i).length) ∧
  ScalarOp spur .popc (fun w a _ => BitVec.ofNat w ((List.range w).filter fun i => a.getLsbD i).length)

/-- The scalar register operations in a spur core (R119, Table ALR-3): two's complement on 64 bits; the value that rd
takes, with the PC, every other register and all memory as they are left. g0 reads as zero and discards writes (R75). -/
def Obligations.ScalarInSpurCores : Prop := ScalarOperations true

/-- An operation on a scalar register and an immediate. -/
def ImmOp (c : Agent → FmtI → Instr) (op : (w : Nat) → BitVec w → BitVec 16 → BitVec w) : Prop :=
  ∀ (u : Agent) (f : FmtI) (s : State) (img : Img),
    MayIssue (c u f) u s img → NotLast u s img → formCode (c u f) = none →
      WritesG (c u f) u s f.rd (op (gWidth u) (gBits u s f.ra) f.imm).toNat

/-- The immediate operations of Table ALR-4: ADDI sign-extends, ANDI, ORI and XORI zero-extend; SHI shifts by
IMM 5:0 modulo the width in the way that IMM 7:6 names; MOVZ and MOVK place IMM at half-word ra. -/
def ImmediateOperations : Prop :=
  ImmOp .addi (fun w a i => a + i.signExtend w) ∧ ImmOp .andi (fun w a i => a &&& i.zeroExtend w) ∧
  ImmOp .ori (fun w a i => a ||| i.zeroExtend w) ∧ ImmOp .xori (fun w a i => a ^^^ i.zeroExtend w) ∧
  ImmOp .shi (fun w a i =>
    let n := (i.extractLsb' 0 6).toNat % w
    if i.extractLsb' 6 2 = 0 then a <<< n else if i.extractLsb' 6 2 = 1 then a >>> n else a.sshiftRight n) ∧
  (∀ (u : Agent) (f : FmtI) (s : State) (img : Img),
    MayIssue (.movz u f) u s img → NotLast u s img → formCode (.movz u f) = none →
      WritesG (.movz u f) u s f.rd (f.imm.toNat * 2 ^ (16 * f.ra.toNat))) ∧
  (∀ (u : Agent) (f : FmtI) (s : State) (img : Img),
    MayIssue (.movk u f) u s img → NotLast u s img → formCode (.movk u f) = none →
      ∃ v, WritesG (.movk u f) u s f.rd v ∧ v < 2 ^ gWidth u ∧
        ∀ i, v.testBit i = if 16 * f.ra.toNat ≤ i ∧ i < 16 * f.ra.toNat + 16 then f.imm.getLsbD (i - 16 * f.ra.toNat)
          else (getG u s f.rd).testBit i)

/-- The scalar register operations in a grotto core, on 32 bits (R159), and the immediate operations in both. That g0 of a
grotto core reads 0 is the model's reading (log entry 13). -/
def Obligations.ScalarInGrottoCoresAndImmediates : Prop := ScalarOperations false ∧ ImmediateOperations

/-- A conditional branch. -/
def BranchOp (c : Agent → FmtB → Instr) (taken : (w : Nat) → BitVec w → BitVec w → Bool) : Prop :=
  ∀ (u : Agent) (f : FmtB) (s : State) (img : Img), MayIssue (c u f) u s img → formCode (c u f) = none →
    let target : Int := pcOf u s + 4 * f.off.toInt
    if taken (gWidth u) (gBits u s f.ra) (gBits u s f.rb) then
      if (img.loadOff : Int) ≤ target ∧ target < img.loadOff + img.codeSize then GoesTo (c u f) u s target.toNat
      else exec (c u f) s = .next (granted (c u f) u s (haltUnit u .outOfRange s))
    else NotLast u s img → GoesTo (c u f) u s (pcOf u s + 4)

/-- Branches (R120): a branch whose condition holds goes to PC + 4 × OFF, halting with OUT_OF_RANGE outside the code
range; one whose condition fails goes on at PC + 4. No register, no memory changes. -/
def ConditionalBranches : Prop :=
  BranchOp .beq (fun _ a b => a == b) ∧ BranchOp .bne (fun _ a b => a != b) ∧
  BranchOp .blt (fun _ a b => a.slt b) ∧ BranchOp .bge (fun _ a b => b.sle a) ∧
  BranchOp .bltu (fun _ a b => a.ult b) ∧ BranchOp .bgeu (fun _ a b => b.ule a)

/-- Jumps (R120, R159): JAL links PC + 4 in g31, or g15 of a grotto core, and goes to PC + 4 × OFF; JALR links in
rd and goes to g[ra] + 4 × IMM; a target outside the code range halts with OUT_OF_RANGE, and one of JALR that is no
multiple of 4 with ILLEGAL_VALUE. -/
def Jumps : Prop :=
  (∀ (u : Agent) (f : FmtJ) (s : State) (img : Img), MayIssue (.jal u f) u s img →
    let target : Int := pcOf u s + 4 * f.off.toInt
    if (img.loadOff : Int) ≤ target ∧ target < img.loadOff + img.codeSize then
      ∃ t, exec (.jal u f) s = .next t ∧
        UnitResult u s t target.toNat (withG u s (if isSpur u then 31 else 15) ((pcOf u s + 4) % 2 ^ gWidth u))
          (getV u s) (getP u s)
    else exec (.jal u f) s = .next (granted (.jal u f) u s (haltUnit u .outOfRange s))) ∧
  (∀ (u : Agent) (f : FmtI) (s : State) (img : Img), MayIssue (.jalr u f) u s img → formCode (.jalr u f) = none →
    let target := (BitVec.ofInt (gWidth u) (getG u s f.ra + 4 * f.imm.toInt)).toNat
    if target % 4 ≠ 0 then exec (.jalr u f) s = .next (granted (.jalr u f) u s (haltUnit u .illegalValue s))
    else if img.loadOff ≤ target ∧ target < img.loadOff + img.codeSize then
      ∃ t, exec (.jalr u f) s = .next t ∧
        UnitResult u s t target (withG u s f.rd ((pcOf u s + 4) % 2 ^ gWidth u)) (getV u s) (getP u s)
    else exec (.jalr u f) s = .next (granted (.jalr u f) u s (haltUnit u .outOfRange s)))

/-- Branches and jumps. -/
def Obligations.BranchesAndJumps : Prop := ConditionalBranches ∧ Jumps

/-! Loads and stores. -/

/-- Loads from TS and SL of a tile, and from LS and BK of a grotto core (R95, R96, R121, R135, R160, R226, R227): LD
zero-extends and LDS sign-extends the bytes at g[ra] + OFF × size, VLD takes a whole register at g[ra] + OFF × the
register's bytes. -/
def LoadsReadMemory : Prop :=
  (∀ (u : Agent) (f : FmtM) (s : State) (img : Img), MayIssue (.ld u f) u s img → NotLast u s img → formCode (.ld u f) = none →
    accessFits u s f.sp.toNat (scalarAddr u f s) (scalarSize f) →
      LoadDoes (.ld u f) u s f.sp.toNat (scalarAddr u f s) (scalarSize f) (withG u s f.rt) (fun _ => getV u s) natOfBytes) ∧
  (∀ (u : Agent) (f : FmtM) (s : State) (img : Img), MayIssue (.lds u f) u s img → NotLast u s img → formCode (.lds u f) = none →
    accessFits u s f.sp.toNat (scalarAddr u f s) (scalarSize f) →
      LoadDoes (.lds u f) u s f.sp.toNat (scalarAddr u f s) (scalarSize f) (withG u s f.rt) (fun _ => getV u s)
        fun bs => ((BitVec.ofNat (8 * scalarSize f) (natOfBytes bs)).signExtend (gWidth u)).toNat) ∧
  (∀ (u : Agent) (f : FmtMV) (s : State) (img : Img), MayIssue (.vld u f) u s img → NotLast u s img → formCode (.vld u f) = none →
    accessFits u s f.sp.toNat (vectorAddr u f s) (vBytes u) →
      LoadDoes (.vld u f) u s f.sp.toNat (vectorAddr u f s) (vBytes u) (fun _ => getG u s) (withV u s f.vt) natOfBytes)

/-- The bytes of the accumulator banks. -/
def accBytes (s : State) (l a len : Nat) : List Byte :=
  (List.range (len / 4)).flatMap fun i => bytesOf 4 (SMap.get 0 (s.tile (tileAt s l)).acc (a / 4 + i)).toNat

/-- A load from the accumulator banks of a context (R44, R67, R83): while a matrix command uses the bank, the context
waits for it with its PC at the load; a poisoned row halts it with MX_CHECK_MISMATCH; else it reads. -/
def AccLoad (c : Instr) (l : Fin 512) (n : Fin 8) (s : State) (a len : Nat) (done : List Byte → Prop) : Prop :=
  let x := s.tile (tileAt s l)
  if bankBusy x (a / 0x20000) s.cyc then
    exec c s = .next (granted c (.spur l n) s
      (setCtxAt s l n { ctxAt s l n with st := .wait, wait := .bank (a / 0x20000) none }))
  else if x.poison.contains (a / 0x200) then
    exec c s = .next (granted c (.spur l n) s (haltUnit (.spur l n) .mxCheckMismatch s))
  else done (accBytes s l a len)

/-- Loads from AC by LD, LDS and VLD. -/
def LoadsReadAccumulators : Prop :=
  ∀ (l : Fin 512) (n : Fin 8) (s : State) (img : Img), NotLast (.spur l n) s img →
    (∀ f : FmtM, MayIssue (.ld (.spur l n) f) (.spur l n) s img → formCode (.ld (.spur l n) f) = none → f.sp = 2 →
      scalarAddr (.spur l n) f s + scalarSize f ≤ 0x80000 → scalarAddr (.spur l n) f s % scalarSize f = 0 →
      AccLoad (.ld (.spur l n) f) l n s (scalarAddr (.spur l n) f s) (scalarSize f) (fun bs =>
        WritesG (.ld (.spur l n) f) (.spur l n) s f.rt (natOfBytes bs))) ∧
    (∀ f : FmtM, MayIssue (.lds (.spur l n) f) (.spur l n) s img → formCode (.lds (.spur l n) f) = none → f.sp = 2 →
      scalarAddr (.spur l n) f s + scalarSize f ≤ 0x80000 → scalarAddr (.spur l n) f s % scalarSize f = 0 →
      AccLoad (.lds (.spur l n) f) l n s (scalarAddr (.spur l n) f s) (scalarSize f) (fun bs =>
        WritesG (.lds (.spur l n) f) (.spur l n) s f.rt
          ((BitVec.ofNat (8 * scalarSize f) (natOfBytes bs)).signExtend 64).toNat)) ∧
    (∀ f : FmtMV, MayIssue (.vld (.spur l n) f) (.spur l n) s img → formCode (.vld (.spur l n) f) = none → f.sp = 2 →
      vectorAddr (.spur l n) f s + 64 ≤ 0x80000 → vectorAddr (.spur l n) f s % 64 = 0 →
      AccLoad (.vld (.spur l n) f) l n s (vectorAddr (.spur l n) f s) 64 (fun bs =>
        WritesV (.vld (.spur l n) f) (.spur l n) s f.vt (natOfBytes bs)))

/-- Every load instruction: from memory, and from the accumulators. -/
def Obligations.Loads : Prop := LoadsReadMemory ∧ LoadsReadAccumulators

/-- Whether a VST stores byte `i` of its register (R122): in a spur core where p[p] selects it. -/
def vstByte (u : Agent) (f : FmtMV) (s : State) (i : Nat) : Bool := !isSpur u || (getP u s f.p.toNat).bit i

/-- Stores outside a commit group to TS and SL of a tile, and to LS and BK of a grotto core (R95, R96, R122, R160): ST
stores the low bytes of g[rt], VST the bytes of the register that p[p] selects. -/
def StoresWriteMemory : Prop :=
  (∀ (u : Agent) (f : FmtM) (s : State) (img : Img), MayIssue (.st u f) u s img → NotLast u s img → formCode (.st u f) = none →
    accessFits u s f.sp.toNat (scalarAddr u f s) (scalarSize f) → unitGroup u s = none →
    (f.sp = 0 → ∀ i, i < scalarSize f → inCode (some img) (scalarAddr u f s + i) 1 = false) →
      StoreDoes (.st u f) u s f.sp.toNat (scalarAddr u f s) (scalarSize f) (getG u s f.rt) fun _ => true) ∧
  (∀ (u : Agent) (f : FmtMV) (s : State) (img : Img), MayIssue (.vst u f) u s img → NotLast u s img → formCode (.vst u f) = none →
    accessFits u s f.sp.toNat (vectorAddr u f s) (vBytes u) → unitGroup u s = none →
    (f.sp = 0 → ∀ i, i < vBytes u → vstByte u f s i = true → inCode (some img) (vectorAddr u f s + i) 1 = false) →
      StoreDoes (.vst u f) u s f.sp.toNat (vectorAddr u f s) (vBytes u) (getV u s f.vt) (vstByte u f s))

/-- The bytes that a store gives a group, with their addresses. -/
def storedBytes (a len val : Nat) (mask : Nat → Bool) : List (Nat × Byte) :=
  (List.range len).filterMap fun i => if mask i then some (a + i, BitVec.ofNat 8 (val >>> (8 * i))) else none

/-- The translation of line `line` is at hand for context `n` of tile `l` of partition `p`: a walk has answered it for this
one use, or the tile's buffer holds it (R220, R268). It gives physical address `phys` and leaves state `s1`. -/
def TranslationHeld (s : State) (l : Fin 512) (n : Fin 8) (p line : Nat) (phys : Option Nat) (s1 : State) : Prop :=
  let h := tileAt s l
  let a : TEntry := SMap.get ⟨32, 0, 0, none, false, false⟩ (s.tile h).answers n
  (a.part = p ∧ a.va = line ∧ phys = a.phys s line ∧
    s1 = s.updTile h fun x => { x with answers := SMap.drop n x.answers }) ∨
  (¬ (a.part = p ∧ a.va = line) ∧ ∃ e, tbufFind (s.tile h).tbuf p line = some e ∧ phys = e.phys s line ∧
    s1 = s.updTile h fun x => { x with tbuf := tbufTouch x.tbuf e, answers := SMap.drop n x.answers })

/-- The translation of line `line` is not at hand for context `n` of tile `l`. -/
def TranslationMissing (s : State) (l : Fin 512) (n : Fin 8) (p line : Nat) : Prop :=
  let h := tileAt s l
  let a : TEntry := SMap.get ⟨32, 0, 0, none, false, false⟩ (s.tile h).answers n
  ¬ (a.part = p ∧ a.va = line) ∧ tbufFind (s.tile h).tbuf p line = none

/-- The walk of `line` is asked for, and the context tries again when it has answered: its PC stays, nothing is staged. -/
def AsksWalk (c : Instr) (l : Fin 512) (n : Fin 8) (s : State) (p line : Nat) : Prop :=
  ∃ t, exec c s = .next t ∧ pcOf (.spur l n) t = pcOf (.spur l n) s ∧
    t.walks = s.walks ++ [⟨p, line, .use l n, s.cyc, true⟩] ∧ SameMemory s t ∧ (∀ h, (t.tile h).group = (s.tile h).group)

/-- A store of a context with an open commit group `g` (R122, R135, R220, R221): TS and SL stores are staged at once; a VA
store is staged with the physical line that its translation gives, and where the translation is not held the walk is
asked for and the store tries again. -/
def StagedStore (c : Instr) (l : Fin 512) (n : Fin 8) (s : State) (g : Group) (sp a : Nat) (bs : List (Nat × Byte)) : Prop :=
  let u : Agent := .spur l n
  let h := tileAt s l
  let line := a / 64 * 64
  let goes (g' : Group) (t : State) := exec c s = .next (granted c u s (setPc u (pcOf u s + 4) (setGroup h g' t)))
  if sp = 0 then goes (stageStore g .ts line bs none []) s
  else if sp = 1 then goes (stageStore g .sl line bs none []) s
  else
    ∀ p, partOfTile s l = some p →
      (if g.aborted.isSome || g.lines.any (fun x => x.space == .va && x.addr == line) then
        goes (stageStore g .va line bs none []) s
      else
        (∀ phys s1, TranslationHeld s l n p line phys s1 →
          goes (stageStore g .va line bs (registered s1 p g line phys) (stagedUses s1 p g line)) s1) ∧
        (TranslationMissing s l n p line → AsksWalk c l n s p line))

/-- Stores in an open commit group: no byte of memory changes. -/
def StoresInGroupAreStaged : Prop :=
  ∀ (l : Fin 512) (n : Fin 8) (s : State) (img : Img) (g : Group),
    NotLast (.spur l n) s img → openGroup s l n = some g →
    (∀ f : FmtM, MayIssue (.st (.spur l n) f) (.spur l n) s img → formCode (.st (.spur l n) f) = none →
      let a := scalarAddr (.spur l n) f s
      let len := scalarSize f
      a % len = 0 → a + len ≤ (if f.sp = 0 then 0x400000 else if f.sp = 1 then 0x10000000 else 2 ^ 52) →
      (f.sp = 0 → ∀ i, i < len → inCode (some img) (a + i) 1 = false) →
        StagedStore (.st (.spur l n) f) l n s g f.sp.toNat a (storedBytes a len (getG (.spur l n) s f.rt) fun _ => true)) ∧
    (∀ f : FmtMV, MayIssue (.vst (.spur l n) f) (.spur l n) s img → formCode (.vst (.spur l n) f) = none →
      let a := vectorAddr (.spur l n) f s
      a % 64 = 0 → a + 64 ≤ (if f.sp = 0 then 0x400000 else if f.sp = 1 then 0x10000000 else 2 ^ 52) →
      (f.sp = 0 → ∀ i, i < 64 → (getP (.spur l n) s f.p.toNat).bit i = true → inCode (some img) (a + i) 1 = false) →
        StagedStore (.vst (.spur l n) f) l n s g f.sp.toNat a
          (storedBytes a 64 (getV (.spur l n) s f.vt) fun i => (getP (.spur l n) s f.p.toNat).bit i))

/-- Every store: outside a commit group, and inside one. -/
def Obligations.Stores : Prop := StoresWriteMemory ∧ StoresInGroupAreStaged

/-- The bytes of a space of a unit (R95, R160, Table SPR-4): TS, SL, AC and VA of a spur core, LS and BK of a grotto core. -/
def spaceSize (u : Agent) (sp : Nat) : Nat :=
  if sp = 0 then (if isSpur u then 0x400000 else 0x10000)
  else if sp = 1 then 0x10000000
  else if sp = 2 then 0x80000
  else 2 ^ 52

/-- An access that the spec does not allow halts its unit (R95, R96, R118, R122, R242): past the end of its space or in
BK outside the partition's ranges with OUT_OF_RANGE, misaligned with ILLEGAL_VALUE, a store of bytes of the code range with
ILLEGAL_VALUE, and a VA store outside a commit group with WRONG_STATE. -/
def Obligations.BadAccessHalts : Prop :=
  ∀ (u : Agent) (s : State) (img : Img),
    let halts (c : Instr) (e : Code) := exec c s = .next (granted c u s (haltUnit u e s))
    (∀ f : FmtM, (f.sp = 3 → unitGroup u s ≠ none) →
      let a := scalarAddr u f s
      let len := scalarSize f
      let size := spaceSize u f.sp.toNat
      (∀ c ∈ [Instr.ld u f, .lds u f, .st u f], Issues c u s img → formCode c = none →
        (size < a + len → halts c .outOfRange) ∧ (a + len ≤ size → a % len ≠ 0 → halts c .illegalValue)) ∧
      (∀ i, Issues (.st u f) u s img → formCode (.st u f) = none → f.sp = 0 → a + len ≤ size → a % len = 0 →
        i < len → inCode (some img) (a + i) 1 = true → halts (.st u f) .illegalValue)) ∧
    (∀ f : FmtMV, (f.sp = 3 → unitGroup u s ≠ none) →
      let a := vectorAddr u f s
      let len := vBytes u
      let size := spaceSize u f.sp.toNat
      (∀ c ∈ [Instr.vld u f, .vst u f], Issues c u s img → formCode c = none →
        (size < a + len → halts c .outOfRange) ∧ (a + len ≤ size → a % len ≠ 0 → halts c .illegalValue) ∧
        (∀ k, u = .grotto k → f.sp = 1 → a + len ≤ size → a % len = 0 → bkAllowed s k a = false → halts c .outOfRange)) ∧
      (∀ i, Issues (.vst u f) u s img → formCode (.vst u f) = none → f.sp = 0 → a + len ≤ size → a % len = 0 →
        i < len → vstByte u f s i = true → inCode (some img) (a + i) 1 = true → halts (.vst u f) .illegalValue)) ∧
    (∀ (l : Fin 512) (n : Fin 8), u = .spur l n → openGroup s l n = none →
      (∀ f : FmtM, f.sp = 3 → Issues (.st u f) u s img → formCode (.st u f) = none → halts (.st u f) .wrongState) ∧
      (∀ f : FmtMV, f.sp = 3 → Issues (.vst u f) u s img → formCode (.vst u f) = none → halts (.vst u f) .wrongState))

/-! Vector instructions. -/

/-- An integer result in `w` bits: wrapped, or saturated to the signed range with S = 1 (R124). -/
def satInt (w : Nat) (sat : Bool) (i : Int) : BitVec w :=
  BitVec.ofInt w (if sat then max (-(2 ^ (w - 1))) (min (2 ^ (w - 1) - 1) i) else i)

/-- Lane `i` of register `r`, of the lane type `t`. -/
def laneOf (u : Agent) (s : State) (r : BitVec 5) (t : BitVec 3) (i : Nat) : BitVec (laneBits t) :=
  BitVec.ofNat _ (lane (getV u s r) (laneBits t) i)

/-- The instruction writes vd, whose lanes of type `t` are `f 0`, `f 1`, …, and changes nothing else but the PC. -/
def WritesLanes (c : Instr) (u : Agent) (s : State) (vd : BitVec 5) (t : BitVec 3) (f : Nat → Nat) : Prop :=
  ∃ v, WritesV c u s vd v ∧ v < 2 ^ (8 * vBytes u) ∧ ∀ i, i < laneCount u t → lane v (laneBits t) i = f i

/-- A lane-by-lane instruction: selected lanes take the result, the others keep theirs (R124). -/
def LaneWise (c : Agent → FmtV → Instr) (float : Bool) (r : Agent → FmtV → State → Nat → Nat) : Prop :=
  ∀ (u : Agent) (f : FmtV) (s : State) (img : Img),
    MayIssue (c u f) u s img → NotLast u s img → formCode (c u f) = none → laneFloat f.t = float →
      WritesLanes (c u f) u s f.vd f.t fun i =>
        if laneOn u s f.pm.toNat (laneBits f.t) i then r u f s i else (laneOf u s f.vd f.t i).toNat

/-- On integer lanes. -/
def LaneInts (c : Agent → FmtV → Instr) (op : (w : Nat) → Bool → BitVec w → BitVec w → BitVec w) : Prop :=
  LaneWise c false fun u f s i => (op (laneBits f.t) f.s (laneOf u s f.va f.t i) (laneOf u s f.vb f.t i)).toNat

/-- On floating lanes: the exact result of the values, rounded once. -/
def LaneFloats (c : Agent → FmtV → Instr) (op : FpNum → FpNum → FpNum → FpNum) : Prop :=
  LaneWise c true fun u f s i =>
    let v (r : BitVec 5) := decodeF (laneFmt f.t) (laneOf u s r f.t i).toNat
    roundF (laneFmt f.t) false (op (v f.va) (v f.vb) (v f.vd))

/-- Lane arithmetic of Table ALR-7 on integer lanes (R124). -/
def VectorIntegerLanes : Prop :=
  LaneInts .vadd (fun w sat a b => satInt w sat (a.toInt + b.toInt)) ∧
  LaneInts .vsub (fun w sat a b => satInt w sat (a.toInt - b.toInt)) ∧
  LaneInts .vmul (fun w sat a b => satInt w sat (a.toInt * b.toInt)) ∧
  LaneInts .vmax (fun _ _ a b => if a.sle b then b else a) ∧ LaneInts .vmin (fun _ _ a b => if a.sle b then a else b) ∧
  LaneInts .vand (fun _ _ a b => a &&& b) ∧ LaneInts .vor (fun _ _ a b => a ||| b) ∧ LaneInts .vxor (fun _ _ a b => a ^^^ b) ∧
  LaneInts .vsll (fun w sat a b => satInt w sat (a.toInt * 2 ^ (b.toNat % w))) ∧
  LaneInts .vsra (fun w _ a b => a.sshiftRight (b.toNat % w)) ∧
  LaneInts .vabs (fun w sat a _ => satInt w sat a.toInt.natAbs) ∧
  LaneInts .vneg (fun w sat a _ => satInt w sat (-a.toInt)) ∧
  LaneInts .vmov (fun _ _ a _ => a)

/-- Lane arithmetic of Table ALR-7 on floating lanes (R103, R124): one rounding of the exact result. -/
def VectorFloatLanes : Prop :=
  LaneFloats .vadd (fun a b _ => addN a b) ∧ LaneFloats .vsub (fun a b _ => addN a (negN b)) ∧
  LaneFloats .vmul (fun a b _ => mulN a b) ∧ LaneFloats .vfma (fun a b d => addN (mulN a b) d) ∧
  LaneFloats .vmax (fun a b _ => maxN a b) ∧ LaneFloats .vmin (fun a b _ => minN a b) ∧
  LaneWise .vabs true (fun u f s i => (laneOf u s f.va f.t i).toNat % 2 ^ (laneBits f.t - 1)) ∧
  LaneWise .vneg true (fun u f s i => (laneOf u s f.va f.t i).toNat ^^^ 2 ^ (laneBits f.t - 1)) ∧
  LaneWise .vmov true (fun u f s i => (laneOf u s f.va f.t i).toNat)

/-- The lane-wise vector instructions, on integer and on floating-point lanes. -/
def Obligations.VectorLanes : Prop := VectorIntegerLanes ∧ VectorFloatLanes

/-- The exponent that VGETEXP gives: floor(log2 |x|) of a finite value other than zero, -2^31 for zero, 2^31 - 1 for an
infinity and a NaN, as INT32. -/
def expOf : FpNum → BitVec 32
  | .fin _ 0 _ => 0x80000000
  | .fin _ m e => BitVec.ofInt 32 (e + Nat.log2 m)
  | _ => 0x7FFFFFFF

/-- A special function of FP32 lanes (R102, R124, R127): one function of the lane's pattern, the same on every unit and in
every state, of whose results `P` holds. -/
def SpecialFunction (c : Agent → FmtV → Instr) (P : W32 → Nat → Prop) : Prop :=
  ∃ r : W32 → Nat, LaneWise c true (fun u f s i => r (BitVec.ofNat 32 (laneOf u s f.va f.t i).toNat)) ∧
    ∀ x, r x < 2 ^ 32 ∧ P x (r x)

/-- The results of exp2 that R102 lists: of -inf, +inf, and of 128 or more. -/
def Exp2Listed (x : W32) (y : Nat) : Prop :=
  (x = 0xFF800000#32 → y = 0) ∧ (0x43000000 ≤ x.toNat → x.toNat ≤ 0x7F800000 → y = 0x7F800000)

/-- The results of the reciprocal that R102 lists: of zeros and infinities. -/
def RcpListed (x : W32) (y : Nat) : Prop :=
  (x = 0#32 → y = 0x7F800000) ∧ (x = 0x80000000#32 → y = 0xFF800000) ∧ (x = 0x7F800000#32 → y = 0) ∧
    (x = 0xFF800000#32 → y = 0x80000000)

/-- The results of the reciprocal square root that R102 lists: of zeros, of +inf, and of negative inputs. -/
def RsqrtListed (x : W32) (y : Nat) : Prop :=
  (x = 0#32 → y = 0x7F800000) ∧ (x = 0x80000000#32 → y = 0xFF800000) ∧ (x = 0x7F800000#32 → y = 0) ∧
    (0x80000000 < x.toNat → x.toNat ≤ 0xFF800000 → y = 0x7FC00000)

/-- Special lane functions (R102, R124, R127) on FP32 lanes: VGETEXP, VSCALE, EXP2, RCP, RSQRT. -/
def VectorSpecialLanes : Prop :=
  LaneWise .vgetexp true (fun u f s i => (expOf (decodeF fp32 (laneOf u s f.va f.t i).toNat)).toNat) ∧
  LaneWise .vscale true (fun u f s i => roundF fp32 false (match decodeF fp32 (laneOf u s f.va f.t i).toNat with
    | .fin g m e => .fin g m (e + (laneOf u s f.vb f.t i).toInt)
    | y => y)) ∧
  SpecialFunction .exp2 Exp2Listed ∧ SpecialFunction .rcp RcpListed ∧ SpecialFunction .rsqrt RsqrtListed

/-- A pattern of type `t` converted to type `d` (R101, R126, Table MX-5): from float to float the value rounded once, an
overflow as SAT says, an infinity kept where the destination is not narrower and has one; to integers rounded and saturated;
from integers rounded once, and between integers wrapped or saturated. -/
def converted (t d : BitVec 3) (sat : Bool) (x : Nat) : Nat :=
  let v := decodeF (laneFmt t) x
  let i := (BitVec.ofNat (laneBits t) x).toInt
  let kept := (v == .inf false || v == .inf true) && decide (laneBits t ≤ laneBits d) && (laneFmt d).infPat.isSome
  if laneFloat t then
    if laneFloat d then roundF (laneFmt d) (sat && !kept) v else (BitVec.ofInt (laneBits d) (toIntSat (laneBits d) v)).toNat
  else if laneFloat d then roundF (laneFmt d) sat (intN i)
  else (satInt (laneBits d) sat i).toNat

/-- Conversions (R126): each converted lane is the lane of va at its place in part PART; where the destination lanes
are narrower the lanes outside the part keep their values. -/
def VectorConversion : Prop :=
  ∀ (u : Agent) (f : FmtV) (s : State) (img : Img),
    MayIssue (.vcvt u f) u s img → NotLast u s img → formCode (.vcvt u f) = none →
      let d : BitVec 3 := f.vb.setWidth 3
      let part := f.vb.toNat / 8
      WritesLanes (.vcvt u f) u s f.vd d fun i =>
        if laneBits f.t ≤ laneBits d then converted f.t d f.s (laneOf u s f.va f.t (part * laneCount u d + i)).toNat
        else if part * laneCount u f.t ≤ i ∧ i < (part + 1) * laneCount u f.t then
          converted f.t d f.s (laneOf u s f.va f.t (i - part * laneCount u f.t)).toNat
        else (laneOf u s f.vd d i).toNat

/-- The vector functions of FP32 lanes, with the results that the spec lists, and conversions. The model's own choices in it:
log entries 2 and 18. -/
def Obligations.VectorFunctions : Prop := VectorSpecialLanes ∧ VectorConversion

/-- The FP32 pattern `x` is that of the real number `v`. -/
def Denotes (x : Nat) (v : ℝ) : Prop :=
  ∃ neg m e, decodeF fp32 x = .fin neg m e ∧ v = (if neg then -1 else 1) * (m : ℝ) * (2 : ℝ) ^ e

/-- The pattern `q` is that of a number within 2 ulp of `y`, an ulp of a subnormal number being 2^-149. -/
def WithinTwoUlp (q : Nat) (y : ℝ) : Prop :=
  ∃ v, Denotes q v ∧ |v - y| ≤ 2 * (2 : ℝ) ^ (max (Int.log 2 |y|) (-126) - 23)

/-- A result finite and normal in FP32. -/
def NormalResult (y : ℝ) : Prop := (2 : ℝ) ^ (-126 : ℤ) ≤ |y| ∧ |y| < (2 : ℝ) ^ (128 : ℤ)

/-- The special functions (R102): for finite inputs whose exact result is finite and normal each result is within 2 ulp of
it, for exp2 also where it is subnormal; all other inputs give the results listed; results are the same on every tile.
Which of the patterns within 2 ulp it is stays open (log entry 2). -/
def Obligations.SpecialFunctionResults : Prop :=
  SpecialFunction .exp2 (fun x y => Exp2Listed x y ∧ ∀ v, Denotes x.toNat v → v < 128 → WithinTwoUlp y ((2 : ℝ) ^ v)) ∧
  SpecialFunction .rcp (fun x y => RcpListed x y ∧ ∀ v, Denotes x.toNat v → NormalResult (1 / v) → WithinTwoUlp y (1 / v)) ∧
  SpecialFunction .rsqrt (fun x y => RsqrtListed x y ∧
    ∀ v, Denotes x.toNat v → NormalResult (1 / Real.sqrt v) → WithinTwoUlp y (1 / Real.sqrt v))

/-- Lane moves (R124, Table ALR-8): VSEL, VBCAST, VPERM, VINS and VEXTR, and VMOVP and VMOVG between p and g. -/
def VectorMoves : Prop :=
  (∀ (u : Agent) (f : FmtV) (s : State) (img : Img), NotLast u s img →
    (MayIssue (.vsel u f) u s img → formCode (.vsel u f) = none →
      WritesLanes (.vsel u f) u s f.vd f.t fun i =>
        (if laneOn u s f.pm.toNat (laneBits f.t) i then laneOf u s f.va f.t i else laneOf u s f.vb f.t i).toNat) ∧
    (MayIssue (.vbcast u f) u s img → formCode (.vbcast u f) = none →
      WritesLanes (.vbcast u f) u s f.vd f.t fun i =>
        if laneOn u s f.pm.toNat (laneBits f.t) i then getG u s f.va % 2 ^ laneBits f.t
        else (laneOf u s f.vd f.t i).toNat) ∧
    (MayIssue (.vperm u f) u s img → formCode (.vperm u f) = none →
      WritesLanes (.vperm u f) u s f.vd f.t fun i =>
        if laneOn u s f.pm.toNat (laneBits f.t) i then
          (laneOf u s f.va f.t ((laneOf u s f.vb f.t i).toNat % laneCount u f.t)).toNat
        else (laneOf u s f.vd f.t i).toNat) ∧
    (MayIssue (.vins u f) u s img → formCode (.vins u f) = none →
      WritesLanes (.vins u f) u s f.vd f.t fun i =>
        if i = getG u s f.vb % laneCount u f.t then getG u s f.va % 2 ^ laneBits f.t
        else (laneOf u s f.vd f.t i).toNat) ∧
    (MayIssue (.vextr u f) u s img → formCode (.vextr u f) = none →
      let x := laneOf u s f.va f.t (getG u s f.vb % laneCount u f.t)
      WritesG (.vextr u f) u s f.vd (if laneFloat f.t then x.toNat else (x.signExtend (gWidth u)).toNat)) ∧
    (MayIssue (.vmovp u f) u s img → formCode (.vmovp u f) = none → WritesP (.vmovp u f) u s f.vd.toNat (BitVec.ofNat 64 (getG u s f.va))) ∧
    (MayIssue (.vmovg u f) u s img → formCode (.vmovg u f) = none → WritesG (.vmovg u f) u s f.vd (getP u s f.va.toNat).toNat))

/-- A compare: the governing bit of each selected lane for which `holds` is set, every other bit of p[vd] is 0. -/
def CompareOp (c : Agent → FmtV → Instr) (ints : (w : Nat) → BitVec w → BitVec w → Bool) (floats : FpNum → FpNum → Bool) : Prop :=
  ∀ (u : Agent) (f : FmtV) (s : State) (img : Img), MayIssue (c u f) u s img → NotLast u s img → formCode (c u f) = none →
    ∃ m, WritesP (c u f) u s f.vd.toNat m ∧ ∀ j, j < 64 → m.getLsbD j =
      let k := laneBits f.t / 8
      let i := j / k
      j % k == 0 && laneOn u s f.pm.toNat (laneBits f.t) i &&
        if laneFloat f.t then
          floats (decodeF (laneFmt f.t) (laneOf u s f.va f.t i).toNat) (decodeF (laneFmt f.t) (laneOf u s f.vb f.t i).toNat)
        else ints (laneBits f.t) (laneOf u s f.va f.t i) (laneOf u s f.vb f.t i)

/-- Compares (R125): equality, less than, less or equal; a write to p0 is discarded. -/
def VectorCompares : Prop :=
  CompareOp .vcmpeq (fun _ a b => a == b) eqN ∧ CompareOp .vcmplt (fun _ a b => a.slt b) ltN ∧
  CompareOp .vcmple (fun _ a b => a.sle b) (fun a b => ltN a b || eqN a b)

/-- The lanes of va that enter a reduction, as values, with `id` for the lanes that p[pm] leaves out. -/
def reduced {α : Type} (u : Agent) (f : FmtV) (s : State) (id : α) (v : BitVec (laneBits f.t) → α) : List α :=
  (List.range (laneCount u f.t)).map fun i =>
    if laneOn u s f.pm.toNat (laneBits f.t) i then v (laneOf u s f.va f.t i) else id

/-- A reduction of integer lanes to `ints`, and of floating ones to `floats`, written to g[vd]. -/
def ReduceOp (c : Agent → FmtV → Instr) (ints : Agent → FmtV → State → Int) (floats : Agent → FmtV → State → FpNum) : Prop :=
  ∀ (u : Agent) (f : FmtV) (s : State) (img : Img), MayIssue (c u f) u s img → NotLast u s img → formCode (c u f) = none →
    WritesG (c u f) u s f.vd
      (if laneFloat f.t then roundF (laneFmt f.t) false (floats u f s) else (BitVec.ofInt (gWidth u) (ints u f s)).toNat)

/-- Reductions (R103, R128): MAX, MIN and AMAX over the selected lanes; SUM by the tree of R103, each level wrapped,
saturated with S = 1, or rounded. -/
def VectorReductions : Prop :=
  ReduceOp .vredMax
    (fun u f s => (reduced u f s (-(2 ^ (laneBits f.t - 1)) : Int) BitVec.toInt).foldl max (-(2 ^ (laneBits f.t - 1))))
    (fun u f s => (reduceTree maxN 7 (reduced u f s (.inf true) fun x => decodeF (laneFmt f.t) x.toNat)).headD .nan) ∧
  ReduceOp .vredMin
    (fun u f s => (reduced u f s (2 ^ (laneBits f.t - 1) - 1 : Int) BitVec.toInt).foldl min (2 ^ (laneBits f.t - 1) - 1))
    (fun u f s => (reduceTree minN 7 (reduced u f s (.inf false) fun x => decodeF (laneFmt f.t) x.toNat)).headD .nan) ∧
  ReduceOp .vredAmax
    (fun u f s => (reduced u f s (0 : Int) fun x => (x.toInt.natAbs : Int)).foldl max 0)
    (fun u f s => (reduceTree maxN 7 (reduced u f s (.fin false 0 0) fun x => absN (decodeF (laneFmt f.t) x.toNat))).headD .nan) ∧
  ReduceOp .vredSum
    (fun u f s => (reduceTree (fun a b => (satInt (laneBits f.t) f.s (a + b)).toInt) 7 (reduced u f s (0 : Int) BitVec.toInt)).headD 0)
    (fun u f s => (reduceTree (fun a b => decodeF (laneFmt f.t) (roundF (laneFmt f.t) false (addN a b))) 7
      (reduced u f s (.fin true 0 0) fun x => decodeF (laneFmt f.t) x.toNat)).headD .nan)

/-- VDOT (R129): each 32-bit lane of vd takes its old value plus the products of the narrow lanes under it, exact and
rounded once into FP32, or as INT32 wrapped or saturated. -/
def VectorDotProduct : Prop :=
  ∀ (u : Agent) (f : FmtV) (s : State) (img : Img), MayIssue (.vdot u f) u s img → NotLast u s img → formCode (.vdot u f) = none →
    WritesLanes (.vdot u f) u s f.vd 7 fun i =>
      let k := 32 / laneBits f.t
      if laneOn u s f.pm.toNat 32 i then
        if laneFloat f.t then
          let v (r : BitVec 5) (j : Nat) := decodeF (laneFmt f.t) (laneOf u s r f.t (k * i + j)).toNat
          roundF fp32 false ((List.range k).foldl (fun x j => addN x (mulN (v f.va j) (v f.vb j)))
            (decodeF fp32 (laneOf u s f.vd 7 i).toNat))
        else
          (satInt 32 f.s ((laneOf u s f.vd 7 i).toInt +
            ((List.range k).map fun j => (laneOf u s f.va f.t (k * i + j)).toInt * (laneOf u s f.vb f.t (k * i + j)).toInt).sum)).toNat
      else (laneOf u s f.vd 7 i).toNat

/-- The instructions that move, compare and fold a vector's lanes. The model's own choices in it: log entries 18 and 87. -/
def Obligations.VectorMovesAndReductions : Prop := VectorMoves ∧ VectorCompares ∧ VectorReductions ∧ VectorDotProduct

/-! Counters. -/

/-- An add by a unit to a counter of this device, of which `halts` says that it is not allowed: staged in an open
commit group (R135), else on its way to the counter with the latency of Table SYNC-2, and noted for the schedule. -/
def AddDoes (c : Instr) (u : Agent) (s : State) (k : Cnt) (amount : Nat) : Prop :=
  match holderOf s k with
  | none => exec c s = .next (granted c u s (haltUnit u .outOfRange s))
  | some x =>
    if holderPart s x = none ∨ holderPart s x ≠ unitPart s u then
      exec c s = .next (granted c u s (haltUnit u .notOwner s))
    else
      match unitGroup u s with
      | some g =>
        ∃ l n, u = .spur l n ∧ exec c s = .next (granted c u s (setPc u (pcOf u s + 4)
          (setGroup (tileAt s l) (stageAdd g k amount) s)))
      | none =>
        ∃ t, exec c s = .next t ∧ pcOf u t = pcOf u s + 4 ∧
          t.adds = s.adds ++ [⟨k, amount, s.cyc + signalLatency s (unitSignaller u) x⟩] ∧
          (∀ r, getG u t r = getG u s r) ∧ (∀ r, getV u t r = getV u s r) ∧ (∀ p, getP u t p = getP u s p) ∧
          SameMemory s t ∧ (∀ i, holderValue t i = holderValue s i) ∧
          t = { s with tiles := t.tiles, roost := t.roost, grt := t.grt, sec := t.sec, parts := t.parts, adds := t.adds
                       boards := t.boards, cores := t.cores }

/-- Adds to counters of this device (R132, R133, R161, R164, R165, R177): CADD adds g[rb] to the counter that g[ra]
names, CSIGL adds IMM 15:8 to own-block counter IMM 6:0. -/
def Obligations.UnitsAddToCounters : Prop :=
  (∀ (u : Agent) (f : FmtQ) (s : State) (img : Img) (block index : Nat),
    MayIssue (.cadd u f) u s img → NotLast u s img → formCode (.cadd u f) = none →
    counterOperand u s (getG u s f.ra) = some (devId s, block, index) →
      AddDoes (.cadd u f) u s (ownBlock u block index) (getG u s f.rb)) ∧
  (∀ (u : Agent) (f : FmtI) (s : State) (img : Img),
    MayIssue (.csigl u f) u s img → NotLast u s img → formCode (.csigl u f) = none →
      AddDoes (.csigl u f) u s (ownBlock u 0xFFF (f.imm.toNat % 128)) (f.imm.toNat / 256)) ∧
  (∀ (u : Agent) (f : FmtQ) (s : State) (img : Img), Issues (.cadd u f) u s img → formCode (.cadd u f) = none →
    counterOperand u s (getG u s f.ra) = none →
      exec (.cadd u f) s = .next (granted (.cadd u f) u s (haltUnit u .illegalValue s))) ∧
  (∀ (l : Fin 512) (n : Fin 8) (f : FmtQ) (s : State) (img : Img) (dev block index p : Nat),
    MayIssue (.cadd (.spur l n) f) (.spur l n) s img → NotLast (.spur l n) s img → formCode (.cadd (.spur l n) f) = none →
    counterOperand (.spur l n) s (getG (.spur l n) s f.ra) = some (dev, block, index) → dev ≠ devId s →
    partOfTile s l = some p →
      if openGroup s l n = none then
        exec (.cadd (.spur l n) f) s = .next (granted (.cadd (.spur l n) f) (.spur l n) s (setPc (.spur l n) (pcOf (.spur l n) s + 4)
          (noteIssued p l n (dev * 2 ^ 20 + block * 256 + index) (getG (.spur l n) s f.rb)
            (forward none (.xfer (caddHeader s l n p dev block index (getG (.spur l n) s f.rb)) []) s))))
      else exec (.cadd (.spur l n) f) s = .next (granted (.cadd (.spur l n) f) (.spur l n) s (haltUnit (.spur l n) .outOfRange s)))

/-- What a wait of unit `u` for counter `k` to reach `target` does: goes on where it is reached, else the unit is in
WAIT with its PC at the next instruction (R82), its registers as they were (R79, R170); a grotto core that leaves READY
begins the refresh operations that are owed, unless one runs (R250). -/
def WaitDoes (c : Instr) (u : Agent) (s : State) (k : Cnt) (target : Nat) : Prop :=
  ∀ x, holderOf s k = some x →
    if target ≤ holderValue s x then GoesTo c u s (pcOf u s + 4)
    else
      match u with
      | .spur l n =>
        exec c s = .next (granted c u s (setCtxAt (setPc u (pcOf u s + 4) s) l n
          { ctxAt s l n with pc := pcOf u s + 4, st := .wait, wait := .counter k target none none }))
      | .grotto j =>
        exec c s = .next (granted c u s (s.setGrotto j { ((s.grotto j).rest s.cyc) with
          pc := (s.grotto j).pc + 4, st := .wait, wait := .counter k target none none }))

/-- Waits (R131, R161, R164, R170, R171): CWAIT on the counter that g[ra] names for g[rb] + g[rc], in a grotto core
g[rb] + 2^32 × g[rc]; CWAITL on own-block counter IMM for g[ra]. A target of 2^64 or more, a counter of another device
and one that the unit may not wait on halt. -/
def Obligations.UnitsWaitOnCounters : Prop :=
  (∀ (u : Agent) (f : FmtQ) (s : State) (img : Img) (dev block index : Nat),
    MayIssue (.cwait u f) u s img → NotLast u s img → formCode (.cwait u f) = none →
    counterOperand u s (getG u s f.ra) = some (dev, block, index) →
      let target := getG u s f.rb + (if isSpur u then 1 else 2 ^ 32) * getG u s f.rc
      if 2 ^ 64 ≤ target then exec (.cwait u f) s = .next (granted (.cwait u f) u s (haltUnit u .waitUnreachable s))
      else if dev ≠ devId s ∨ (isSpur u = false ∧ block ≠ 0xFFF) ∨ mayWait u s (ownBlock u block index) = false then
        exec (.cwait u f) s = .next (granted (.cwait u f) u s (haltUnit u .outOfRange s))
      else WaitDoes (.cwait u f) u s (ownBlock u block index) target) ∧
  (∀ (u : Agent) (f : FmtQ) (s : State) (img : Img), Issues (.cwait u f) u s img → formCode (.cwait u f) = none →
    counterOperand u s (getG u s f.ra) = none →
      exec (.cwait u f) s = .next (granted (.cwait u f) u s (haltUnit u .illegalValue s))) ∧
  (∀ (u : Agent) (f : FmtI) (s : State) (img : Img),
    MayIssue (.cwaitl u f) u s img → NotLast u s img → formCode (.cwaitl u f) = none →
      if ownCount u ≤ f.imm.toNat then exec (.cwaitl u f) s = .next (granted (.cwaitl u f) u s (haltUnit u .outOfRange s))
      else WaitDoes (.cwaitl u f) u s (ownBlock u 0xFFF f.imm.toNat) (getG u s f.ra))

/-- A read of an own-block counter (R132, R173): index g[ra], OUT_OF_RANGE past the block. -/
def ReadDoes (c : Instr) (u : Agent) (f : FmtQ) (s : State) (val : Holder → Nat) : Prop :=
  if ownCount u ≤ getG u s f.ra then exec c s = .next (granted c u s (haltUnit u .outOfRange s))
  else ∀ x, holderOf s (ownBlock u 0xFFF (getG u s f.ra)) = some x → WritesG c u s f.rd (val x)

/-- Reads (R75, R132, R161, R173, R180, R478, Table ALR-12, Table ALR-13): CRD, CRDF, CRDH, CGSTAT, QSTAT, RDSTEP,
RDCYC, RDID. -/
def Obligations.UnitsReadState : Prop :=
  (∀ (u : Agent) (f : FmtQ) (s : State) (img : Img), NotLast u s img →
    (MayIssue (.crd u f) u s img → formCode (.crd u f) = none → ReadDoes (.crd u f) u f s fun x => holderValue s x % 2 ^ gWidth u) ∧
    (MayIssue (.crdf u f) u s img → formCode (.crdf u f) = none → ReadDoes (.crdf u f) u f s fun x => if holderSat s x then 1 else 0) ∧
    (MayIssue (.crdh u f) u s img → formCode (.crdh u f) = none → ReadDoes (.crdh u f) u f s fun x => holderValue s x / 2 ^ 32)) ∧
  (∀ (l : Fin 512) (n : Fin 8) (s : State) (img : Img), NotLast (.spur l n) s img →
    (∀ f, MayIssue (.cgstat (.spur l n) f) (.spur l n) s img → formCode (.cgstat (.spur l n) f) = none →
      WritesG (.cgstat (.spur l n) f) (.spur l n) s f.rd (cgStatus s l n % 2 ^ 64)) ∧
    (∀ f, MayIssue (.qstat (.spur l n) f) (.spur l n) s img → formCode (.qstat (.spur l n) f) = none →
      WritesG (.qstat (.spur l n) f) (.spur l n) s f.rd (queueWord s l (queueAt s l f.ra.toNat) % 2 ^ 64)) ∧
    (∀ f, MayIssue (.rdid (.spur l n) f) (.spur l n) s img → formCode (.rdid (.spur l n) f) = none →
      WritesG (.rdid (.spur l n) f) (.spur l n) s f.rd (l.val * 8 + n.val)) ∧
    (∀ f p, MayIssue (.rdstep (.spur l n) f) (.spur l n) s img → formCode (.rdstep (.spur l n) f) = none → partOfTile s l = some p →
      WritesG (.rdstep (.spur l n) f) (.spur l n) s f.rd (curStep s p)) ∧
    (∀ f p, MayIssue (.rdcyc (.spur l n) f) (.spur l n) s img → formCode (.rdcyc (.spur l n) f) = none → partOfTile s l = some p →
      WritesG (.rdcyc (.spur l n) f) (.spur l n) s f.rd (stepCycles s p % 2 ^ 64)))

/-! Commit groups, translation, queues, system. -/

/-- Commit-group instructions of a context (R134, R135, R136, R138, R142, R145): CGBEGIN opens a group, or answers
WRONG_STATE where one is open on the tile or its cluster is paused; CGCOMMIT starts the open group's commit, with
counter g[ra]; CGABORT discards it with CG_ABORT_SOFTWARE; TWR stages a translation write. Outside a group CGCOMMIT
and TWR halt with WRONG_STATE and CGABORT does nothing. -/
def CommitGroupInstructions : Prop :=
  ∀ (l : Fin 512) (n : Fin 8) (f : FmtQ) (s : State) (img : Img),
    let u : Agent := .spur l n
    let h := tileAt s l
    let goes (c : Instr) (t : State) := exec c s = .next (granted c u s (setPc u (pcOf u s + 4) t))
    let halts (c : Instr) (e : Code) := exec c s = .next (granted c u s (haltUnit u e s))
    NotLast u s img →
    (MayIssue (.cgbegin u f) u s img → formCode (.cgbegin u f) = none →
      if (s.tile h).group = none ∧ clusterPaused s (clusterOf l) = false then
        goes (.cgbegin u f) (setG u f.rd 0 (setGroup h { ctx := n } s))
      else WritesG (.cgbegin u f) u s f.rd Code.wrongState.toNat) ∧
    (MayIssue (.cgcommit u f) u s img → formCode (.cgcommit u f) = none →
      match openGroup s l n with
      | none => halts (.cgcommit u f) .wrongState
      | some g =>
        if 127 < getG u s f.ra then halts (.cgcommit u f) .outOfRange
        else goes (.cgcommit u f) (setGroup h { g with phase := .committing (getG u s f.ra) s.cyc } s)) ∧
    (MayIssue (.cgabort u f) u s img → formCode (.cgabort u f) = none →
      if openGroup s l n = none then GoesTo (.cgabort u f) u s (pcOf u s + 4)
      else ∃ t, exec (.cgabort u f) s = .next t ∧ (t.tile h).group = none ∧ pcOf u t = pcOf u s + 4 ∧
        cgStatus t l n = Code.cgAbortSoftware.toNat ∧ (∀ r, getG u t r = getG u s r) ∧ SameMemory s t ∧
        t = { s with tiles := t.tiles, roost := t.roost, sec := t.sec, boards := t.boards, cores := t.cores }) ∧
    (MayIssue (.twr u f) u s img → formCode (.twr u f) = none →
      match openGroup s l n with
      | none => halts (.twr u f) .wrongState
      | some g =>
        if 2 ^ 52 ≤ getG u s f.ra then halts (.twr u f) .outOfRange
        else if getG u s f.ra % 65536 ≠ 0 then halts (.twr u f) .illegalValue
        else goes (.twr u f) (setGroup h (stageTwr g (getG u s f.ra) (getG u s f.rb)
          (match partOfTile s l with
            | some p => stagedUses s p g (getG u s f.ra)
            | none => [])) s))

/-- What a commit group takes in (R136): nothing once it is aborted; the 33rd line, the ninth counter advance and the
fifth translation write abort it with CG_ABORT_CAPACITY; anything within capacity is added and aborts nothing. -/
def CommitGroupCapacity : Prop :=
  (∀ (g : Group) (sp : GSpace) (a : Nat) (bs : List (Nat × Byte)) (phys : Option Nat) (used : List Nat),
    let g' := stageStore g sp a bs phys used
    (g.aborted ≠ none → g' = g) ∧
    (g.aborted = none → g.hasLine sp a = false → 32 ≤ g.usedLines → g'.aborted = some .cgAbortCapacity ∧ g'.lines = g.lines) ∧
    (g.aborted = none → (g.hasLine sp a = true ∨ g.usedLines < 32) → g'.aborted = none ∧ g'.adds = g.adds ∧ g'.ops = g.ops ∧
      ∃ x ∈ g'.lines, x.space = sp ∧ x.addr = a)) ∧
  (∀ (g : Group) (c : Cnt) (n : Nat),
    (g.aborted ≠ none → stageAdd g c n = g) ∧
    (g.aborted = none → 8 ≤ g.usedAdds → stageAdd g c n = { g with aborted := some .cgAbortCapacity }) ∧
    (g.aborted = none → g.usedAdds < 8 → stageAdd g c n = { g with adds := g.adds ++ [⟨c, n⟩] })) ∧
  (∀ (g : Group) (va e : Nat) (used : List Nat),
    (g.aborted ≠ none → stageTwr g va e used = g) ∧
    (g.aborted = none → 4 ≤ g.usedXlt → stageTwr g va e used = { g with aborted := some .cgAbortCapacity }) ∧
    (g.aborted = none → g.usedXlt < 4 →
      stageTwr g va e used = { g with ops := g.ops ++ [.twr va (BitVec.ofNat 64 e)], used := used ++ g.used })) ∧
  (∀ (g : Group) (va n : Nat) (phys : Option Nat) (used : List Nat),
    let page := n % 256 = 0
    let full := 32 ≤ g.usedLines ∨ (page ∧ (8 ≤ g.usedAdds ∨ 4 ≤ g.usedXlt))
    (g.aborted ≠ none → stageKvapp g va n phys used = g) ∧
    (g.aborted = none → full → stageKvapp g va n phys used = { g with aborted := some .cgAbortCapacity }) ∧
    (g.aborted = none → ¬ full → stageKvapp g va n phys used =
      { g with ops := g.ops ++ [.kvapp va n (phys.map fun a => a / 64 * 64)], used := used ++ g.used }))

/-- What CGBEGIN, CGCOMMIT and CGABORT do, and how much a commit group holds. -/
def Obligations.CommitGroups : Prop := CommitGroupInstructions ∧ CommitGroupCapacity

/-- KVAPP (R146, R220, R221) with its lengths-table line's translation at hand stages an append, else it asks for the walk; an
address of 2^52 or more halts with OUT_OF_RANGE, a misaligned one with ILLEGAL_VALUE, and outside a group the context halts
with WRONG_STATE. TPIN (R144) whose translations are all held adds 1 to its counter after two cycles; with a translation
still to walk the add waits for TPIN_DONE. The model's own choices in it: log entry 28. -/
def Obligations.AppendsAndPins : Prop :=
  ∀ (l : Fin 512) (n : Fin 8) (f : FmtQ) (s : State) (img : Img) (p : Nat),
    let u : Agent := .spur l n
    let h := tileAt s l
    let va := getG u s f.ra
    NotLast u s img → partOfTile s l = some p →
    (MayIssue (.kvapp u f) u s img → formCode (.kvapp u f) = none → openGroup s l n = none →
      exec (.kvapp u f) s = .next (granted (.kvapp u f) u s (haltUnit u .wrongState s))) ∧
    (MayIssue (.kvapp u f) u s img → formCode (.kvapp u f) = none → ∀ g, openGroup s l n = some g →
      (2 ^ 52 ≤ va → exec (.kvapp u f) s = .next (granted (.kvapp u f) u s (haltUnit u .outOfRange s))) ∧
      (va < 2 ^ 52 → va % 64 ≠ 0 → exec (.kvapp u f) s = .next (granted (.kvapp u f) u s (haltUnit u .illegalValue s))) ∧
      (va < 2 ^ 52 → va % 64 = 0 → g.aborted ≠ none → GoesTo (.kvapp u f) u s (pcOf u s + 4)) ∧
      (va < 2 ^ 52 → va % 64 = 0 → g.aborted = none →
        (∀ phys s1, TranslationHeld s l n p va phys s1 →
          exec (.kvapp u f) s = .next (granted (.kvapp u f) u s (setPc u (pcOf u s + 4) (setGroup h
            (stageKvapp g va (getG u s f.rb) (registered s1 p g va phys)
              (stagedUses s1 p g va ++ entryPlaces s1 p ((opsWrites s1 p (g.ops ++ [.kvapp va (getG u s f.rb) none])).map (·.1))))
            s1)))) ∧
        (TranslationMissing s l n p va → AsksWalk (.kvapp u f) l n s p va))) ∧
    (MayIssue (.tpin u f) u s img → formCode (.tpin u f) = none → f.ra ≠ 0 → 127 < va →
      exec (.tpin u f) s = .next (granted (.tpin u f) u s (haltUnit u .outOfRange s))) ∧
    (MayIssue (.tpin u f) u s img → formCode (.tpin u f) = none → (f.ra = 0 ∨ va ≤ 127) →
      let cs := if f.ra = 0 then [] else [va]
      let added : List Add := if f.ra = 0 then [] else [⟨⟨l, va⟩, 1, s.cyc + 2⟩]
      let pins := match nextStep (s.part p) (curStep s p) with
        | some r => pinsOf s p l r
        | none => []
      let held := pins.all fun v => (tbufFind (s.tile h).tbuf p v).isSome
      ∃ t, exec (.tpin u f) s = .next t ∧ pcOf u t = pcOf u s + 4 ∧ SameMemory s t ∧ (∀ r, getG u t r = getG u s r) ∧
        match (s.tile h).tpin with
        | some x =>
          if x.done then (t.tile h).tpin = some x ∧ t.adds = s.adds ++ added
          else (t.tile h).tpin = some { x with counters := x.counters ++ cs } ∧ t.adds = s.adds
        | none =>
          if held && !pinWalks s l true then (t.tile h).tpin = some ⟨[], true⟩ ∧ t.adds = s.adds ++ added
          else (t.tile h).tpin = some ⟨cs, false⟩ ∧ t.adds = s.adds)

/-- Queue instructions (R88, R89, R94, R147, R148): QPUSH puts the 32 bytes of v[rb] at the tail, waits on a full
queue, and halts with WRONG_STATE on one that is full and HALTED; QPUSHN answers OK or QUEUE_FULL; QFLUSH discards what
has not started and, with nothing in flight, leaves the queue in RUN. -/
def QueueInstructions : Prop :=
  ∀ (l : Fin 512) (n : Fin 8) (f : FmtQ) (s : State) (img : Img),
    let u : Agent := .spur l n
    let q := f.ra.toNat
    let x := queueAt s l q
    let pushed : Queue := { x with held := x.held ++ [entryOf u s f.rb n]
                                   headFree := if x.held = [] then max x.headFree (s.cyc + 1) else x.headFree }
    let goes (c : Instr) (t : State) := exec c s = .next (granted c u s (setPc u (pcOf u s + 4) t))
    NotLast u s img →
    (MayIssue (.qpush u f) u s img → formCode (.qpush u f) = none →
      (x.held.length < 32 → goes (.qpush u f) (setQueueAt l q pushed s)) ∧
      (32 ≤ x.held.length → x.st = .halted → exec (.qpush u f) s = .next (granted (.qpush u f) u s (haltUnit u .wrongState s))) ∧
      (32 ≤ x.held.length → x.st ≠ .halted →
        exec (.qpush u f) s = .next (granted (.qpush u f) u s (setCtxAt s l n { ctxAt s l n with st := .wait, wait := .slot q none })))) ∧
    (MayIssue (.qpushn u f) u s img → formCode (.qpushn u f) = none →
      (x.held.length < 32 → goes (.qpushn u f) (setG u f.rd 0 (setQueueAt l q pushed s))) ∧
      (32 ≤ x.held.length → WritesG (.qpushn u f) u s f.rd Code.queueFull.toNat)) ∧
    (MayIssue (.qflush u f) u s img → formCode (.qflush u f) = none →
      ∃ t, exec (.qflush u f) s = .next t ∧ pcOf u t = pcOf u s + 4 ∧ (queueAt t l q).held = [] ∧
        (queueAt t l q).flights = x.flights ∧ (queueAt t l q).last = 0 ∧
        (x.inFlight = 0 → (queueAt t l q).st = .run ∧ (queueAt t l q).flushing = false) ∧
        (∀ r, r ≠ q → queueAt t l r = queueAt s l r) ∧ (∀ r, getG u t r = getG u s r) ∧ SameMemory s t)

/-- NOP goes on; END returns a context to IDLE, halting with WRONG_STATE where the context has a commit group open
(R143), and a grotto core to IDLE, from where it is launched again when its launch counter exceeds its launches (R243,
R244). -/
def SystemInstructions : Prop :=
  (∀ (u : Agent) (f : FmtA) (s : State) (img : Img), MayIssue (.nop u f) u s img → NotLast u s img → formCode (.nop u f) = none →
    GoesTo (.nop u f) u s (pcOf u s + 4)) ∧
  (∀ (l : Fin 512) (n : Fin 8) (f : FmtA) (s : State) (img : Img), MayIssue (.endProg (.spur l n) f) (.spur l n) s img →
    formCode (.endProg (.spur l n) f) = none →
      (openGroup s l n = none → exec (.endProg (.spur l n) f) s =
        .next (granted (.endProg (.spur l n) f) (.spur l n) s (setCtxAt s l n { ctxAt s l n with st := .idle }))) ∧
      (openGroup s l n ≠ none → exec (.endProg (.spur l n) f) s =
        .next (granted (.endProg (.spur l n) f) (.spur l n) s (haltUnit (.spur l n) .wrongState s)))) ∧
  (∀ (k : Fin 512) (f : FmtA) (s : State) (img : Img), MayIssue (.endProg (.grotto k) f) (.grotto k) s img →
    formCode (.endProg (.grotto k) f) = none →
      ∃ t, exec (.endProg (.grotto k) f) s = .next t ∧ (t.grotto k).st = .idle ∧
        (t.grotto k).g = (s.grotto k).g ∧ (t.grotto k).w = (s.grotto k).w ∧
        ((t.grotto k).launchDue ≠ none ↔ (s.grotto k).launches.toNat < (SMap.get 0 (s.grotto k).cnt 0).toNat ∨
          (s.grotto k).launchDue ≠ none) ∧
        SameMemory s t ∧ t.tiles = s.tiles ∧ (∀ j, j ≠ k.val → t.grotto j = s.grotto j))

/-- The instructions of Tables ALR-13 and ALR-14 that push to and flush queues, go on and end. The model's own choices
in it: log entries 12 and 30. -/
def Obligations.QueueAndSystemInstructions : Prop := QueueInstructions ∧ SystemInstructions

/-! Queues and the matrix engine. -/

/-- The next entry of a queue becomes its head (R90, R91, R93, R148): one that fails a static check halts the queue with
its code and stays held; one that passes is ready, and may start where its wait clause is met, else stalls the queue. -/
def Obligations.QueueHeads : Prop :=
  ∀ (t : Fin 512) (q : Fin 3) (s : State) (h : Nat) (e : QEntry) (r : List QEntry),
    let x := queueAt s t q
    let s1 := s.upTo x.headFree
    physOf s t = some h → x.held = e :: r → x.headReady = false → x.flushing = false → x.st ≠ .halted →
    tileResetting s t = false →
    (staticCheck s1 t q e = none → Leads (.queueHead t q) s fun y =>
      OnlyTileAt h x.headFree s y ∧
      y.tile h = { s.tile h with qs := (y.tile h).qs } ∧ (∀ p, p ≠ q.val → (y.tile h).qOf p = (s.tile h).qOf p) ∧
      queueAt y t q =
        (if (match e.waitCnt t with
              | some (c, v) => (match holderOf s1 c with
                | some k => decide (v ≤ holderValue s1 k)
                | none => false)
              | none => true)
          then { x with headReady := true, headMet := some s1.cyc, st := .run }
          else { x with headReady := true, headMet := none, wake := none, st := .stalled })) ∧
    (∀ c, staticCheck s1 t q e = some c → Leads (.queueHead t q) s fun y =>
      (queueAt y t q).st = .halted ∧ (queueAt y t q).last = c ∧ (queueAt y t q).held = x.held ∧
      (queueAt y t q).flights = x.flights ∧ SameMemory s y ∧ ∀ j, j ≠ h → y.tile j = s.tile j)

/-- The rows of the drains in flight that are in the tile store before cycle `c` (R42): row i of a drain that starts on cycle
s is there from cycle s + i + 16 on. With one drain alone, exactly those rows are written, in its order. -/
def DrainsSettle : Prop :=
  ∀ (t : Fin 512) (s : State) (h c : Nat), physOf s t = some h →
    let x := s.tile h
    let y := settleDrains t h c s
    let drains (f : Flight) : Bool := !f.done && cmdOp f.entry.cmd == 3 && f.act != []
    (((x.qOf 0).flights.any drains) = false → y = s) ∧
    (∀ (k : Nat) (f : Flight), (x.qOf 0).flights[k]? = some f → ((y.tile h).qOf 0).flights[k]? =
      some (if drains f then { f with written := max f.written (min (drainRows f.entry.cmd) (c - (f.start + 16))) } else f)) ∧
    (∀ (k : Nat) (f : Flight), (x.qOf 0).flights[k]? = some f → drains f = true →
      (∀ (j : Nat) (g : Flight), (x.qOf 0).flights[j]? = some g → drains g = true → j = k) →
      (y.tile h).store = (List.range (min (drainRows f.entry.cmd) (c - (f.start + 16)) - f.written)).foldl (fun m j =>
        m.writeBytes (fld f.entry.cmd 51 36 * 64 + (f.written + j) * (fld f.entry.cmd 61 52 * 64))
          ((f.act.drop ((f.written + j) * drainRow f.entry.cmd)).take (drainRow f.entry.cmd))) x.store)

/-- The matrix commands start (R37, R38, R40, R42, R43, R46, R57, R69, R198): with the memory that they read free of
errors, the head leaves its queue and is in flight, an MXLOAD for its load time into the shadow block, an MXMUL with
the block and the activations that it uses, an MXDRAIN with the rows that it reads, an MXKAT overwriting both blocks;
an MXMUL whose block is missing or does not fit halts the queue. A command that reads what drains write starts after the
rows that it reads are written, and sees them. The model's own choices in it: log entries 10, 27, 31 and 80. -/
def Obligations.MatrixCommandsStart : Prop := DrainsSettle ∧
  ∀ (t : Fin 512) (s : State) (h : Nat) (e : QEntry),
    let x := s.tile h
    let c := e.cmd
    let clean (s : State) := (∀ a, eccCheck s (.store h) a = .clean) ∧ ∀ a, eccCheck s (.slice h) a = .clean
    (headToStart s t 0 1 = some (h, e) → x.loadDue = none → behindBadDrain x c = false → matrixOps x 4 = [] →
      let c0 := max (max (headCycle s t 0) x.shadowFree) (drainedFrom x c)
      let dur := loadTime (loadFmt c) + 8
      let c1 := if c.getLsbD 12 || c.getLsbD 53 then clearOfSlots s h c0 dur else c0
      let s1 := settleDrains t h c1 s
      let b : WBlock :=
        { fmt := loadFmt c, k := loadK c, n := loadN c, chk := (rg s1 (.tile h) rTileMxCtrl).bit 0
          w := weightCodes c (rangeBytes (memOf s1 (srcMem h (c.getLsbD 12)))
            (rowRanges (fld c 40 20 * 128) (loadK c) (fld c 52 41 * 128) (loadRow c)))
          sc := if fmtScaled (loadFmt c) then (rangeBytes (memOf s1 (srcMem h (c.getLsbD 53)))
              (rowRanges (fld c 81 54) (loadK c / 32) (fld c 95 82) (loadN c))).map (·.toNat) else [] }
      clean s1 → Leads (.mxload t) s fun y => OnlyTileAt h c1 s1 y ∧
        (y.tile h).qOf 0 = ((s1.tile h).qOf 0).started { entry := e, start := c1, due := c1 + dur } c1 ∧
        y.tile h = { s1.tile h with
          ctx := (y.tile h).ctx, qs := (y.tile h).qs, shadow := none, loadDue := some (b, c1 + dur) }) ∧
    (headToStart s t 0 2 = some (h, e) → (c.getLsbD 12 = true → x.loadDue = none) → behindBadDrain x c = false →
      matrixOps x 4 = [] →
      let c0 := max (max (headCycle s t 0) (streamFree x)) (drainedFrom x c)
      let blk := if c.getLsbD 12 then x.shadow else x.active
      match blk with
      | none => exec (.mxmul t) s = .next (haltQueue t 0 .wrongState (s.upTo c0))
      | some b =>
        if b.k ≠ mulK c ∨ b.n ≠ mulN' c ∨ fmtPair b.fmt ≠ fmtPair (mulFmt c) then
          exec (.mxmul t) s = .next (haltQueue t 0 .illegalValue (s.upTo c0))
        else
          let s1 := settleDrains t h c0 s
          let z := s1.tile h
          let f : Flight :=
            { entry := e, start := c0, due := c0 + 264 + mulS c - 1, blk := some b
              act := rangeBytes z.store (rowRanges (fld c 50 35 * 64) (mulM c) (fld c 60 51 * 64) (mulRow c))
              scales := if fmtScaled (mulFmt c) then z.store.readBytes (fld c 82 61) (mulM c * (mulK c / 32)) else [] }
          clean s1 → Leads (.mxmul t) s fun y => OnlyTileAt h c0 s1 y ∧ (y.tile h).qOf 0 = (z.qOf 0).started f c0 ∧
            y.tile h = { z with
              ctx := (y.tile h).ctx, qs := (y.tile h).qs
              active := if c.getLsbD 12 then x.shadow else x.active
              shadow := if c.getLsbD 12 then none else x.shadow
              shadowFree := if c.getLsbD 12 then c0 + 1 else x.shadowFree }) ∧
    (headToStart s t 0 3 = some (h, e) → (∀ f ∈ matrixOps x 2, fld f.entry.cmd 15 14 ≠ fld c 15 14) → matrixOps x 4 = [] →
      let port := (matrixOps x 3).foldl (fun m f => max m (f.start + drainRows f.entry.cmd)) 0
      let bank := if x.bankDone.has (fld c 15 14) then SMap.get 0 x.bankDone (fld c 15 14) + 1 else 0
      let c0 := max (headCycle s t 0) (max port bank)
      let bad := ∃ k ∈ rowKeys (fld c 15 14) (fld c 23 16) (drainRows c), k ∈ x.poison
      Leads (.mxdrain t) s fun y => OnlyTileAt h c0 s y ∧
        (y.tile h).qOf 0 = (x.qOf 0).started
          { entry := e, start := c0, due := c0 + drainRows c - 1 + 16, act := if bad then [] else drainBytes x c } c0 ∧
        y.tile h = { x with ctx := (y.tile h).ctx, qs := (y.tile h).qs }) ∧
    (headToStart s t 0 4 = some (h, e) → matrixBusy x = [] →
      let c0 := headCycle s t 0
      Leads (.mxkat t) s fun y => OnlyTileAt h c0 s y ∧
        (y.tile h).qOf 0 = (x.qOf 0).started { entry := e, start := c0, due := c0 + 1024 } c0 ∧
        y.tile h = { x with ctx := (y.tile h).ctx, qs := (y.tile h).qs, active := none, shadow := none })

/-- The matrix commands end (R37, R42, R50, R55, R67, R69, R70): an MXLOAD's block is the shadow block; an MXMUL of an
unchecked block has written, or added and rounded once, its results in its accumulator rows; an MXDRAIN has written
its rows to the tile store; an MXKAT on an array without a fault has passed. The command has completed. The model's
own choices in it: log entries 27 and 31. -/
def Obligations.MatrixCommandsEnd : Prop :=
  ∀ (t : Fin 512) (s : State) (h i : Nat) (f : Flight),
    let x := s.tile h
    let q := x.qOf 0
    let c := f.entry.cmd
    physOf s t = some h → q.flights[i]? = some f →
    (∀ b due, x.loadDue = some (b, due) → oldestOf q 1 = some i → Leads (.mxloadDone t) s fun y => OnlyTileAt h due s y ∧
      (y.tile h).qOf 0 = q.finished i f ∧
      y.tile h = { x with qs := (y.tile h).qs, shadow := some b, loadDue := none, shadowFree := due + 1 }) ∧
    (∀ b, oldestOf q 2 = some i → f.blk = some b → b.chk = false → b.n ≤ (columnsOf s h).length → Leads (.mxmulDone t) s fun y =>
      OnlyTileAt h f.due s y ∧ (y.tile h).qOf 0 = q.finished i f ∧
      (∀ m n, m < mulM c → n < b.n →
        let k := accIndex (fld c 15 14) (fld c 23 16 + m) n
        let v := disturb s.flt h ((columnsOf s h).getD n 0) ((rowValues b (actRow c f.act f.scales m)).getD n .nan)
        SMap.get 0 (y.tile h).acc k = BitVec.ofNat 32 (roundF fp32 false
          (if c.getLsbD 13 then addN (decodeF fp32 (SMap.get 0 x.acc k).toNat) v else v))) ∧
      (∀ k, (∀ m n, m < mulM c → n < b.n → k ≠ accIndex (fld c 15 14) (fld c 23 16 + m) n) →
        SMap.get 0 (y.tile h).acc k = SMap.get 0 x.acc k) ∧
      y.tile h = { x with ctx := (y.tile h).ctx, qs := (y.tile h).qs, acc := (y.tile h).acc, poison := (y.tile h).poison
                          bankDone := SMap.put (fld c 15 14) f.due x.bankDone }) ∧
    (oldestOf q 3 = some i → f.act ≠ [] → Leads (.mxdrainDone t) s fun y =>
      (y.tile h).qOf 0 = q.finished i f ∧
      (y.tile h).store = (List.range (drainRows c - f.written)).foldl (fun m j =>
        m.writeBytes (fld c 51 36 * 64 + (f.written + j) * (fld c 61 52 * 64))
          ((f.act.drop ((f.written + j) * drainRow c)).take (drainRow c))) x.store ∧ (y.tile h).lastDrain = some (c, f.start) ∧
      (∀ m, m ≠ .store h → memOf y m = memOf s m) ∧ (y.tile h).acc = x.acc) ∧
    (oldestOf q 3 = some i → f.act = [] → Leads (.mxdrainDone t) s fun y =>
      ((y.tile h).qOf 0).st = .halted ∧ ((y.tile h).qOf 0).last = .mxCheckMismatch ∧ SameMemory s y) ∧
    (oldestOf q 4 = some i → arrayFaulty s h = false → Leads (.mxkatDone t) s fun y =>
      OnlyTileAt h f.due s y ∧ (y.tile h).qOf 0 = q.finished i f ∧
      y.tile h = { x with qs := (y.tile h).qs, kat := some y.cyc, katFrom := if unchecked s h then some y.cyc else none }) ∧
    (oldestOf q 4 = some i → arrayFaulty s h = true → Leads (.mxkatDone t) s fun y =>
      ((y.tile h).qOf 0).st = .halted ∧ ((y.tile h).qOf 0).last = .mxKatFail ∧
      (rg y (.tile h) rTileMxStatus).bit 0 = true ∧ SameMemory s y)

/-- Element `i` of `w` bits in the bytes of a memory from `a`. -/
def elemAt (m : Mem) (a w i : Nat) : Nat := ((m.read (a + w * i / 8)).toNat + 256 * (m.read (a + w * i / 8 + 1)).toNat +
  65536 * (m.read (a + w * i / 8 + 2)).toNat + 16777216 * (m.read (a + w * i / 8 + 3)).toNat +
  4294967296 * (m.read (a + w * i / 8 + 4)).toNat) / 2 ^ (w * i % 8) % 2 ^ w

/-- Moves (R71, R72, R90, R155, R156, R157): with fewer than four in flight the head starts; an MVCOPY between TS and
SL copies its bytes and changes no other byte; an MVTRAN puts element j of source row i at element i of row j. Sources
free of errors. The model's own choices in it: log entry 27. -/
def Obligations.MovesCopyAndTranspose : Prop :=
  ∀ (t : Fin 512) (s : State) (h p : Nat), physOf s t = some h → partOfTile s t = some p →
    (∀ (e : QEntry) (op : Nat) (c : Instr), (c = .mvcopy t ∧ op = 0x11 ∨ c = .mvtran t ∧ op = 0x12) →
      headToStart s t 1 op = some (h, e) → ((s.tile h).qOf 1).inFlight < 4 →
      let c0 := headCycle s t 1
      Leads c s fun y => OnlyTileAt h c0 s y ∧
        (y.tile h).qOf 1 = ((s.tile h).qOf 1).started { entry := e, start := c0, due := c0 + moveLead s t e.cmd } c0 ∧
        y.tile h = { s.tile h with ctx := (y.tile h).ctx, qs := (y.tile h).qs }) ∧
    (∀ (i : Nat) (f : Flight), ((s.tile h).qOf 1).flights[i]? = some f → f.done = false →
      (∀ a, eccCheck s (.store h) a = .clean) → (∀ a, eccCheck s (.slice h) a = .clean) →
      let c := f.entry.cmd
      (cmdOp c = 0x11 → fld c 9 8 ≤ 1 → fld c 11 10 ≤ 1 →
        let src := srcMem h (fld c 9 8 == 1)
        let dst := srcMem h (fld c 11 10 == 1)
        (mvcopyBreach s t c).value = false →
        Leads (.mvcopyDone t i) s fun y => ((y.tile h).qOf 1) = ((s.tile h).qOf 1).finished i f ∧
          (∀ j, j < copyLen c → (memOf y dst).read (fld c 115 64 + j) = (memOf s src).read (fld c 63 12 + j)) ∧
          SameMemoryBut dst (fld c 115 64) (copyLen c) s y) ∧
      (cmdOp c = 0x12 → fld c 9 8 ≤ 1 → (mvtranBreach c).value = false →
        let w := tranBits c
        let src := srcMem h (fld c 9 8 == 1)
        let dst := srcMem h (fld c 10 10 == 1)
        Leads (.mvtranDone t i) s fun y => ((y.tile h).qOf 1) = ((s.tile h).qOf 1).finished i f ∧
          (∀ a b, a < tranR c → b < tranC c →
            elemAt (memOf y dst) (fld c 97 70 + b * (fld c 127 114 * 16)) w a =
              elemAt (memOf s src) (fld c 69 18 + a * (fld c 113 98 * 16)) w b) ∧
          SameMemoryBut dst (fld c 97 70) ((tranC c - 1) * (fld c 127 114 * 16) + tranR c * w / 8) s y))

/-- Sends and signals (R92, R93, R177, R298, R299, R300): with none in flight an FSEND whose class has a way to its device
starts, with the header of R298 formed on its start cycle, or waits where the link's send buffer has no room for it; one
that has none halts its queue with the code of Table FAB-4; at its end its lines leave under that header; the oldest
completed command of a queue fires its signal, once. The model's own choices in it: log entry 32. -/
def Obligations.SendsAndSignals : Prop :=
  ∀ (t : Fin 512) (s : State) (h p : Nat), physOf s t = some h → partOfTile s t = some p →
    (∀ (e : QEntry), headToStart s t 2 0x21 = some (h, e) → ((s.tile h).qOf 2).inFlight = 0 →
      let c0 := headCycle s t 2
      (∀ code, sendStart s p e.cmd = .error code → exec (.fsend t) s = .next (haltQueue t 2 code (s.upTo c0))) ∧
      (∀ l, sendStart s p e.cmd = .ok l →
        if e.cmd.getLsbD 51 && !sendRoom s l (fld e.cmd 127 116) then exec (.fsend t) s = .next s
        else Leads (.fsend t) s fun y => OnlyTileAt h c0 s y ∧
          (y.tile h).qOf 2 = ((s.tile h).qOf 2).started { entry := e, start := c0, due := c0 + fld e.cmd 127 116
                                                          hdr := some (sendHeader (s.upTo c0) t p e) } c0 ∧
          y.tile h = { s.tile h with ctx := (y.tile h).ctx, qs := (y.tile h).qs })) ∧
    (∀ (i : Nat) (f : Flight), ((s.tile h).qOf 2).flights[i]? = some f → oldestOf ((s.tile h).qOf 2) 0x21 = some i →
      (∀ a, eccCheck s (srcMem h (f.entry.cmd.getLsbD 8)) a = .clean) →
      let c := f.entry.cmd
      let hd := f.hdr.getD (sendHeader (s.upTo f.due) t p f.entry)
      exec (.fsendDone t) s = .next (completeFlight t 2 i (forward none
        (.xfer (if f.failed then { hd with signal := none } else hd)
          ((memOf s (srcMem h (c.getLsbD 8))).readBytes (fld c 36 9) (copyLen c))) (s.upTo f.due)))) ∧
    (∀ (q : Fin 3) (f : Flight) (r : List Flight) (k : Holder),
      ((s.tile h).qOf q).flights = f :: r → f.done = true → f.failed = false → f.entry.clause.getLsbD 86 = false →
      let cl := f.entry.clause
      let b := fld cl 106 95
      let cnt : Cnt := ⟨if b = 0xFFF then t else b, fld cl 94 87⟩
      holderOf s cnt = some k →
      (tileResetting s t = false ∨ 0x200 ≤ cnt.block ∨ tileResetting s cnt.block = false) →
        Leads (.signalClause t q) s fun y =>
          y.adds = s.adds ++ [⟨cnt, fld cl 126 121, s.cyc + signalLatency s (.tile t) k⟩] ∧
          (y.tile h).qOf q = { (s.tile h).qOf q with flights := dropSilent r } ∧ SameMemory s y ∧ y.regs = s.regs ∧
          (∀ j, j ≠ h → y.tile j = s.tile j))

/-! Host writes. -/

/-- A command that is a register write by a host is rejected with the first code of the common checks of R474 (owner,
reserved bits, width), and while a fence, a reset or the saddle controller's state turns it away (R323, R358, R379,
R389, R434); a rejected write changes nothing but the block's ERRCODE, a partition's where it came through its VF, and
the vectors that report it (R9). -/
def HostWritesChecked : Prop :=
  (∀ (c : Instr) (s : State) (x : HostCmd) (e : Code), hostCmd s c = some x → x.refused s = some e →
    exec c s = .next (rejectWrite x.a x.b e s)) ∧
  (∀ (c : Instr) (s : State) (x : HostCmd), hostCmd s c = some x → x.refused s = none → x.gated s = true →
    ∃ e, exec c s = .next (rejectWrite x.a x.b e s)) ∧
  (∀ (a : Acc) (b : Blk) (e : Code) (s : State),
    let t := rejectWrite a b e s
    let s1 := match errReg b with
      | some (r, o) => rset s r o (errWord e)
      | none => s
    let s2 := if a.vf = 0 then s1 else rset s1 (.part (a.vf.val - 1)) rPartErrcode (errWord e)
    t = { s with regs := s2.regs, port0 := t.port0, port1 := t.port1, sent := t.sent })

/-! Counters. -/

/-- Adds that reach a counter on one cycle are applied as one (R167, R168): the counter rises by their sum and saturates
at 2^64 - 1, its saturated flag set then; no other counter changes; while it moves in a repair they are held (R166). -/
def CounterAdds : Prop :=
  (∀ (c : Cnt) (s : State) (k : Holder) (d : Nat),
    let now := s.adds.filter fun x => x.c == c && x.due == d
    let a := now.foldl (fun m x => m + x.amount) 0
    holderOf s c = some k → nextDue s c = some d → countersMoving s c = false → addAbsorbed s k = false → 0 < a →
      Leads (.counterAdd c) s fun y =>
        holderValue y k = min (holderValue s k + a) (2 ^ 64 - 1) ∧
        holderSat y k = (holderSat s k || decide (2 ^ 64 ≤ holderValue s k + a)) ∧
        y.adds = s.adds.filter (fun x => !(x.c == c && x.due == d)) ∧ y.cyc = max s.cyc d ∧
        (∀ c' k', holderOf s c' = some k' → c' ≠ c → holderValue y k' = holderValue s k' ∧ holderSat y k' = holderSat s k') ∧
        ((∀ g i, k ≠ .group g i) → SameMemory s y)) ∧
  (∀ (c : Cnt) (s : State), countersMoving s c = true → exec (.counterAdd c) s = .next s)

/-- Waits end (R82, R83, R172, R178): a context, a queue head or a grotto core resumes twelve cycles after the write that
met its wait, a wake from the saddle standing for that write, and a context that woke issues ahead of the rotation; a context
that waits for a slot or a bank tries again two cycles after it is free. -/
def WaitsEnd : Prop :=
  (∀ (t : Fin 512) (n : Fin 8) (s : State) (h : Nat) (c : Cnt) (v : Nat) (a : Option Nat) (m : Nat),
    physOf s t = some h → (ctxAt s t n).st = .wait → (ctxAt s t n).wait = .counter c v a (some m) →
      let s1 := setCtxAt (s.upTo (m + 12)) t n { ctxAt s t n with st := .ready, wait := .none }
      exec (.contextWake t (.ctx n)) s = .next { s1 with
        boards := SMap.put (unitKey (.spur t n)) { boardOf (.spur t n) s with woke := some (max s.cyc (m + 12)) } s.boards }) ∧
  (∀ (t : Fin 512) (q : Fin 3) (s : State) (h m : Nat),
    physOf s t = some h → (queueAt s t q).st = .stalled → (queueAt s t q).headMet = some m →
      exec (.contextWake t (.queue q)) s = .next (setQueueAt t q { queueAt s t q with st := .run } (s.upTo m))) ∧
  (∀ (t : Fin 512) (n : Fin 8) (s : State) (h : Nat) (c : Cnt) (v a : Nat),
    physOf s t = some h → (ctxAt s t n).st = .wait → (ctxAt s t n).wait = .counter c v (some a) none →
      exec (.saddleWake t (.ctx n)) s =
        .next (setCtxAt (s.upTo a) t n { ctxAt s t n with wait := .counter c v (some a) (some a) })) ∧
  (∀ (t : Fin 512) (q : Fin 3) (s : State) (h a : Nat),
    physOf s t = some h → (queueAt s t q).wake = some a → (queueAt s t q).headMet = none →
      exec (.saddleWake t (.queue q)) s =
        .next (setQueueAt t q { queueAt s t q with wake := none, headMet := some (a + 12) } (s.upTo a))) ∧
  (∀ (t : Fin 512) (n : Fin 8) (s : State) (h q c : Nat),
    physOf s t = some h → (ctxAt s t n).st = .wait → (ctxAt s t n).wait = .slot q (some c) →
      exec (.queueSlotReady t n) s =
        .next (setCtxAt (s.upTo (c + 2)) t n { ctxAt s t n with st := .ready, wait := .none })) ∧
  (∀ (t : Fin 512) (n : Fin 8) (s : State) (h b : Nat) (freed : Option Nat),
    physOf s t = some h → (ctxAt s t n).st = .wait → (ctxAt s t n).wait = .bank b freed →
      let c := max (drainsEnd (s.tile h) b) (freed.getD 0)
      (bankBusy (s.tile h) b (max c s.cyc) = false → exec (.accBankReady t n) s =
        .next (setCtxAt (s.upTo (c + 2)) t n { ctxAt s t n with st := .ready, wait := .none })) ∧
      (bankBusy (s.tile h) b (max c s.cyc) = true → exec (.accBankReady t n) s = .next s)) ∧
  (∀ (k : Fin 512) (s : State) (c : Cnt) (v : Nat) (a : Option Nat) (m : Nat),
    (s.grotto k).st = .wait → (s.grotto k).wait = .counter c v a (some m) →
      exec (.grottoWake k) s = .next ((s.upTo (m + 12)).setGrotto k { s.grotto k with st := .ready, wait := .none }))

/-- Adds to counters, and the ends of waits on them. The model's own choices in it: log entries 3, 10, 12, 80,
83 and 96. -/
def Obligations.CountersAndWaits : Prop := CounterAdds ∧ WaitsEnd

/-! Commit groups and translation. -/

/-- Bytes of a memory from `a` on, each with its place. -/
def bytesAt (m : MemId) (a : Nat) (bs : List Byte) : List (MemId × Nat × Byte) := bs.zipIdx.map fun b => (m, a + b.2, b.1)

/-- What a group that passed its checks stores at its commit point, in order (R138, Table KV-5): its translation entries, the
masked bytes of its lines where they lie, and for each append the page that it takes and the new length. -/
def commitStores (s : State) (p h : Nat) (w : CommitWork) (g : Group) : List (MemId × Nat × Byte) :=
  ((w.writes s p).flatMap fun e =>
    match inRange s p e.1 with
    | some (k, x) => bytesAt (.stack k) x (bytesOf 8 e.2)
    | none => []) ++
  (g.lines.flatMap fun l =>
    match linePlace s p (w.writes s p) h l with
    | some (m, a) => l.bytes.map fun b => (m, a + (b.1 - l.addr), b.2)
    | none => []) ++
  w.apps.flatMap fun a =>
    match inRange s p a.entry with
    | some (k, x) =>
      (if a.l3.isSome then bytesAt (.stack k) (x + 0x18) (bytesOf 8 (a.page s p)) else []) ++ bytesAt (.stack k) x (bytesOf 8 (a.n + 1))
    | none => []

/-- Byte `a` of memory `m` after stores in order, the last of them to it, else what it was. -/
def storedByte (st : List (MemId × Nat × Byte)) (s : State) (m : MemId) (a : Nat) : Byte :=
  match st.reverse.find? fun x => x.2.1 == a && (match x.1, m with | .stack _, .stack _ => true | i, j => i == j) with
  | some x => x.2.2
  | none => (memOf s m).read a

/-- Host-visible counter `i` is a job counter of a host queue. -/
def JobCounter (s : State) (i : Nat) : Prop :=
  ∃ p q, q < 16 ∧ partOfGroup s (i / 64) = some p ∧ queueValid s p q = true ∧
    (queueCounter s p q .start = i ∨ queueCounter s p q .done = i)

/-- The counter of a pool's head. -/
def headIdx (s : State) (p q : Nat) : Nat := (poolCfg s p q).field 11 0

/-- A commit point (R138, R139, R141, R273, R408): nothing happens while a supply dip freezes commits, or while a lower
tile's group of the partition reaches its own on the same cycle. A group that fails its checks leaves memory and counters as
they were (but for HELD marks, R282); one that passes stores its translation entries, lines and appends, every other byte
being as it was, advances the heads of its pools, and issues its advances. The group's end adds 1 to the counter that its
CGCOMMIT named once its advances have reached theirs. The model's own choices in it: log entries 21, 27 and 84. -/
def Obligations.CommitPoints : Prop :=
  ∀ (t : Fin 512) (s : State) (h p : Nat), physOf s t = some h → partOfTile s t = some p →
    ((s.tile h).group = none → exec (.commitPoint t) s = .next s ∧ exec (.commitDone t) s = .next s) ∧
    ∀ g : Group, (s.tile h).group = some g →
      (∀ idx since, g.phase = .committing idx since →
        (commitsFrozen s = true ∨ lowerCommits s p h since = true → exec (.commitPoint t) s = .next s) ∧
        (commitsFrozen s = false → lowerCommits s p h since = false →
          (∀ c w, commitChecks s p h g = .error (c, w) → Leads (.commitPoint t) s fun y =>
            (y.tile h).group = some { g with phase := .landed idx y.cyc c } ∧ y.adds = s.adds ∧ s.cyc ≤ y.cyc ∧ y.hv = s.hv ∧
            (s.bup.handed = [] → c ≠ .kvPoolEmpty → SameMemory s y) ∧
            (s.bup.handed = [] → ∀ m a,
              (∀ x ∈ w.apps, ∀ k z, x.l3.isSome = true → inRange s p x.entry = some (k, z) →
                ¬ Touched (.stack k) (z + 12) 2 m a ∧ ¬ Touched (.stack k) (z + 32) 6 m a) →
                  (memOf y m).read a = (memOf s m).read a)) ∧
          (∀ w, commitChecks s p h g = .ok w → Leads (.commitPoint t) s fun y =>
            (y.tile h).group = some { g with phase := .landed idx (lastAdvance y t g) .ok } ∧ s.cyc ≤ y.cyc ∧
            y.adds = s.adds ++ g.adds.filterMap (fun a => (holderOf s a.c).map fun k =>
              ⟨a.c, a.amount, y.cyc + signalLatency s (.tile t) k⟩) ∧
            ((∀ q, q < 8 → w.need q ≠ 0 → ¬ JobCounter s (headIdx s p q)) → s.bup.handed = [] →
              ∀ m a, (memOf y m).read a = storedByte (commitStores s p h w g) s m a) ∧
            ∀ i, i < 4096 → addAbsorbed s (.group (i / 64) (i % 64)) = false →
              hvValue y i = min (hvValue s i +
                ((List.range 8).filter fun q => headIdx s p q == i).foldl (fun n q => n + w.need q) 0) (2 ^ 64 - 1)))) ∧
      ((∀ idx since, g.phase ≠ .committing idx since) → exec (.commitPoint t) s = .next s) ∧
      ((∀ idx due c, g.phase ≠ .landed idx due c) → exec (.commitDone t) s = .next s) ∧
      (∀ idx due c, g.phase = .landed idx due c →
        let waits := c == .ok && g.adds.any fun a => s.adds.any fun x => x.c == a.c && decide (x.due ≤ due)
        (waits = true → exec (.commitDone t) s = .next s) ∧
        (waits = false → Leads (.commitDone t) s fun y =>
          (y.tile h).group = none ∧ ((y.tile h).ctxOf g.ctx).cgCode = c ∧ y.cyc = max s.cyc due ∧ SameMemory s y ∧
          (idx < 128 → addAbsorbed s (.tile h t idx) = false →
            (countersMoving s ⟨t, idx⟩ = false →
              holderValue y (.tile h t idx) = min (holderValue s (.tile h t idx) + 1) (2 ^ 64 - 1) ∧ y.adds = s.adds) ∧
            (countersMoving s ⟨t, idx⟩ = true → y.adds = s.adds ++ [⟨⟨t, idx⟩, 1, y.cyc⟩]))))

/-- A walk's end (R265, R475): it is counted, and as a failure where it gives no legal output; its translation goes where it
was asked for (R144, R220, R269). The walks behind the first 64 wait. -/
def WalksEnd : Prop :=
  ∀ (i : Nat) (s : State), (s.walks[i]? = none ∨ 64 ≤ i → exec (.walkDone i) s = .next s) ∧
    ∀ w : Walk, s.walks[i]? = some w → i < 64 → w.part < 32 →
      let e := walkEntry s w.part w.va
      let held := w.placed && e.oa.isSome
      Leads (.walkDone i) s fun y =>
        y.walks = s.walks.eraseIdx i ∧ (s.bup.handed = [] → SameMemory s y) ∧
        rf y (.kvp w.part) rKvpWalkcnt 31 0 = min (rf s (.kvp w.part) rKvpWalkcnt 31 0 + 1) (2 ^ 32 - 1) ∧
        rf y (.kvp w.part) rKvpWalkcnt 63 32 =
          (if e.legal s w.va then rf s (.kvp w.part) rKvpWalkcnt 63 32
           else min (rf s (.kvp w.part) rKvpWalkcnt 63 32 + 1) (2 ^ 32 - 1)) ∧
        match w.why with
        | .arrival => y.tiles = s.tiles ∧ y.arrivals = if held then tbufPlace 1024 s.arrivals e else s.arrivals
        | .tpin t next =>
          let h := tileAt s t
          y.arrivals = s.arrivals ∧ (∀ j, j ≠ h → y.tile j = s.tile j) ∧
            y.tile h = { s.tile h with tbuf :=
              if w.placed then tbufPlace 256 (s.tile h).tbuf { e with pinNow := !next, pinNext := next } else (s.tile h).tbuf }
        | .use t unit =>
          let h := tileAt s t
          y.arrivals = s.arrivals ∧ (∀ j, j ≠ h → y.tile j = s.tile j) ∧
            y.tile h =
              if held then { s.tile h with tbuf := tbufPlace 256 (s.tile h).tbuf e }
              else
                let a := SMap.put unit ⟨w.part, w.va, 1, e.phys s w.va, false, false⟩ (s.tile h).answers
                { s.tile h with answers := a }

/-- Translation (R144, R265, R266, R268, R475): what a walk's end leaves; an invalidation keeps walks in flight from being
placed, is turned away while one runs, and removes every copy that its GO named; a TPIN adds to its counters two cycles after
its last walk is done. The model's own choices in it: log entry 20. -/
def Obligations.TranslationWalks : Prop :=
  WalksEnd ∧
  (∀ (a : Acc) (p : Fin 32) (v : Word) (s : State) (x : HostCmd), hostCmd s (.xltinv a p v) = some x → x.reaches = true →
    x.refused s = none →
    ((rg s (.kvp p) rKvpXltinv).bit 61 = true → exec (.xltinv a p v) s = .next (rejectWrite a (.kvp p) .wrongState s)) ∧
    ((rg s (.kvp p) rKvpXltinv).bit 61 = false → ∀ t, taken (.xltinv a p v) s = some t →
      let s1 := (rput t (.kvp p) rKvpXltinv 61 61 1).updPart p fun y => { y with xltinv := x.fields s }
      exec (.xltinv a p v) s =
        .next { s1 with walks := s.walks.map fun w => if w.part = p.val then { w with placed := false } else w })) ∧
  (∀ (p : Fin 32) (s : State), ((rg s (.kvp p) rKvpXltinv).bit 61 = false → exec (.xltinvDone p) s = .next s) ∧
    ((rg s (.kvp p) rKvpXltinv).bit 61 = true →
      let w := (s.part p).xltinv
      let gone (e : TEntry) : Prop := e.part = p.val ∧ (w.bit 62 = true ∨
        e.va < w.field 51 16 * 65536 + 65536 ∧ w.field 51 16 * 65536 < e.va + e.size)
      Leads (.xltinvDone p) s fun y =>
        (∀ e, e ∈ y.arrivals ↔ e ∈ s.arrivals ∧ ¬ gone e) ∧
        (∀ h e, e ∈ (y.tile h).tbuf ↔ e ∈ (s.tile h).tbuf ∧ ¬ gone e) ∧
        (rg y (.kvp p) rKvpXltinv).bit 61 = false ∧ SameMemory s y)) ∧
  (∀ (t : Fin 512) (s : State) (h : Nat), physOf s t = some h →
    let late := if pinWalks s t false then [] else (s.tile h).tpinLate
    let ends := match (s.tile h).tpin with
      | some x => !x.done && !pinWalks s t true
      | none => false
    let now := match (s.tile h).tpin with
      | some x => if ends then x.counters else []
      | none => []
    Leads (.tpinDone t) s fun y =>
      y.adds = s.adds ++ (late ++ now).map (fun i => ⟨⟨t, i⟩, 1, s.cyc + 2⟩) ∧
      (y.tile h).tpin = (if ends then some ⟨[], true⟩ else (s.tile h).tpin) ∧
      (y.tile h).tpinLate = (if pinWalks s t false then (s.tile h).tpinLate else []) ∧
      SameMemory s y ∧ y.regs = s.regs ∧ y.cyc = s.cyc)

/-! Traverses and steps. -/

/-- LOAD, RUN, STOP, UNLOAD and PART_RUNEPOCH (R113, R115, R192, R332): the states that a traverse passes through, the epoch
mark that RUN waits for, and what a held RUN and its cancelling leave. LOADING ends with the traverse in place, or FAILED with
the code and offset of what ended it. The model's own choices in it: log entries 37 and 38. -/
def Obligations.TraverseCommands : Prop :=
  ∀ (a : Acc) (p : Fin 32) (v : Word) (s t : State),
    let st := trvState s p
    let ep := rg s (.part p) rPartRunepoch
    let only (k : Nat) : Prop := (valueOf a (v ||| BitVec.ofNat 64 (2 ^ k))).field 3 0 = 2 ^ k
    (taken (.loadTrv a p v) s = some t → only 0 → (st = trvEMPTY ∨ st = trvLOADED ∨ st = trvFAILED) →
      Leads (.loadTrv a p v) s fun y => trvState y p = trvLOADING ∧ rf y (.part p) rPartTrvstat 63 48 = 0 ∧
        (rg y (.part p) rPartRunepoch).bit 62 = false ∧ y.part p = s.part p ∧ SameMemory s y ∧ y.tiles = s.tiles) ∧
    (taken (.runTrv a p v) s = some t → only 1 → st = trvLOADED → windowImage s p = false →
      (ep.bit 63 = false → Leads (.runTrv a p v) s fun y => trvState y p = trvRUNNING ∧
        (y.part p).runAt = some (s.markCyc + ((s.cyc - s.markCyc) / 8192 + 1) * 8192) ∧
        (y.part p).trv = (s.part p).trv ∧ SameMemory s y ∧ y.tiles = s.tiles) ∧
      (ep.bit 63 = true → epochNum s + 2 ≤ ep.field 61 0 → Leads (.runTrv a p v) s fun y => trvState y p = trvLOADED ∧
        y.part p = s.part p ∧ (rg y (.part p) rPartRunepoch).bit 62 = true ∧ SameMemory s y ∧ y.tiles = s.tiles)) ∧
    (taken (.stopTrv a p v) s = some t → only 2 → st = trvRUNNING → Leads (.stopTrv a p v) s fun y =>
      trvState y p = trvSTOPPING ∧ y.part p = { s.part p with runAt := none } ∧ SameMemory s y ∧ y.tiles = s.tiles) ∧
    (taken (.unloadTrv a p v) s = some t → only 3 → (st = trvLOADED ∨ st = trvFAILED) →
      Leads (.unloadTrv a p v) s fun y => trvState y p = trvEMPTY ∧ (y.part p).trv = none ∧
        (rg y (.part p) rPartRunepoch).bit 62 = false ∧
        (∀ i h, physOf s i = some h → partOfTile s i = some p.val → (y.tile h).img = none) ∧
        (∀ k, partOfGrotto s k = some p.val → (y.grotto k).img = none)) ∧
    (taken (.partRunEpoch a p v) s = some t →
      let new := (rg t (.part p) rPartRunepoch).bit 63
      (ep.bit 62 = true → new = false → Leads (.partRunEpoch a p v) s fun y =>
        (rg y (.part p) rPartRunepoch).bit 62 = false ∧ y.part p = s.part p ∧ trvState y p = st ∧ y.tiles = s.tiles) ∧
      (ep.bit 62 = true → new = true → exec (.partRunEpoch a p v) s = .next (rejectWrite a (.part p) .wrongState s)) ∧
      (ep.bit 62 = false → exec (.partRunEpoch a p v) s = .next t)) ∧
    (st = trvSTOPPING → ((s.part p).started = false ∨ (s.part p).budgetEnd = true) → partQuiet s p = true →
      exec (.stopDone p) s = .next (setTrvState p trvLOADED s)) ∧
    (st = trvLOADING → fillsPending s p = false →
      (∀ hd s1 c, readVa p 64 (trvBase s p) 64 s = (hd, some c, s1) → Leads (.loadDone p) s fun y =>
        trvState y p = trvFAILED ∧ rf y (.part p) rPartTrvstat 63 48 = c.toNat ∧
          rf y (.part p) rPartTrvstat 31 0 = 0xFFFFFFFF ∧ (y.part p).trv = (s1.part p).trv) ∧
      (∀ hd s1 c o, readVa p 64 (trvBase s p) 64 s = (hd, none, s1) → headerBad hd = some (c, o) → o < 2 ^ 32 →
        Leads (.loadDone p) s fun y => trvState y p = trvFAILED ∧ rf y (.part p) rPartTrvstat 63 48 = c.toNat ∧
          rf y (.part p) rPartTrvstat 31 0 = o ∧ (y.part p).trv = (s1.part p).trv) ∧
      (∀ hd s1 bs s2, readVa p 64 (trvBase s p) 64 s = (hd, none, s1) → headerBad hd = none →
        readVa p (le hd 0x30 8 / 65536 + 2) (trvBase s p) (le hd 0x30 8) s = (bs, none, s2) → traverseBad bs = none →
        unfitBad s2 p bs = none → coreBusy s2 (traverseOf bs) = false →
          Leads (.loadDone p) s fun y => trvState y p = trvLOADED ∧ rf y (.part p) rPartTrvstat 63 48 = 0 ∧
            (y.part p).trv = some (traverseOf bs) ∧ (y.part p).started = false ∧ (y.part p).runAt = none))

/-- A tile that a step's entry names. -/
def entryCovers (e : EntryRec) (t : Nat) : Prop := e.first ≤ t ∧ t < e.first + e.count

/-- Steps (R109, R115, R179 to R182, R330): step 0 starts at the epoch mark that RUN waits for, the next step, or
after the last one of a LOOP traverse its loop step, when BUDGET has elapsed; the contexts that the step's entries
name and that are IDLE start at their offsets; the end of a step closes its budget and counts a finished pass; the
last step of a traverse without LOOP ends it. The model's own choices in it: log entry 38. -/
def Obligations.StepsStartAndEnd : Prop :=
  ∀ (p : Fin 32) (s : State) (tr : Traverse), (s.part p).trv = some tr → tr.steps.length ≤ 2 ^ 32 →
    let x := s.part p
    let cur := curStep s p
    (∀ n, trvState s p = trvRUNNING → x.runAt = some n → s.markCyc < n → exec (.stepStart p) s = .next s) ∧
    (∀ n, trvState s p = trvRUNNING → x.runAt = some n → n ≤ s.markCyc → Leads (.stepStart p) s fun y =>
      curStep y p = 0 ∧ y.cyc = max s.cyc n ∧ trvState y p = trvRUNNING ∧ SameMemory s y ∧
      (y.part p).started = true ∧ (y.part p).stepStart = n ∧ (y.part p).stopped = 0 ∧
      (y.part p).stoppedAt = x.stoppedAt.map (fun _ => n) ∧
      (y.part p).budgetEnd = false ∧ (y.part p).runAt = none ∧
      ∀ (r : StepRec) (pre : List EntryRec) (e : EntryRec) (post : List EntryRec) (t h : Nat) (i : Img) (k off : Nat),
        tr.steps[0]? = some r → r.entries = pre ++ e :: post → (∀ d ∈ pre, ¬ entryCovers d t) → entryCovers e t →
        physOf s t = some h → (s.tile h).img = some i → e.offs[k]? = some off → off ≠ 0xFFFFFFFF →
        ((s.tile h).ctxOf k).st = .idle →
          (y.tile h).ctxOf k = { (s.tile h).ctxOf k with st := .ready, pc := i.loadOff + off }) ∧
    (∀ r c due, trvState s p = trvRUNNING → x.runAt = none → x.started = true → x.budgetEnd = true →
      nextStep x cur = some r → tr.steps[cur]? = some c → stepCycleAt x c.budget = some due →
      (r.align = true → s.markCyc < due → exec (.stepStart p) s = .next s) ∧
      ((r.align = true → due ≤ s.markCyc) → Leads (.stepStart p) s fun y =>
        let at_ := if r.align then s.markCyc - (s.markCyc - due) / 8192 * 8192 else due
        curStep y p = (if cur + 1 < tr.steps.length then cur + 1 else tr.loopStep) ∧ y.cyc = max s.cyc at_ ∧
        trvState y p = trvRUNNING ∧ (y.part p).stepStart = at_ ∧ (y.part p).budgetEnd = false ∧ SameMemory s y)) ∧
    (∀ c due, (trvState s p = trvRUNNING ∨ trvState s p = trvSTOPPING) → x.started = true → x.budgetEnd = false →
      tr.steps[cur]? = some c → stepCycleAt x c.budget = some due → Leads (.stepEnd p) s fun y =>
        (y.part p).budgetEnd = true ∧ max s.cyc due ≤ y.cyc ∧ curStep y p = cur ∧ trvState y p = trvState s p ∧
        rf y (.part p) rPartTrvstep 63 32 =
          (if cur + 1 = tr.steps.length then min (rf s (.part p) rPartTrvstep 63 32 + 1) (2 ^ 32 - 1)
           else rf s (.part p) rPartTrvstep 63 32)) ∧
    (trvState s p = trvRUNNING → x.started = true → x.budgetEnd = true → x.runAt = none → nextStep x cur = none →
      exec (.traverseEnd p) s = .next (setTrvState p trvLOADED s)) ∧
    (∀ (i : Nat) (r : StepRec) (c : CplanRec) (due : Nat), tr.steps[cur]? = some r → r.cplan[i]? = some c →
      stepCycleAt x c.deadline = some due → x.started = true → i ∉ x.checked → x.paused = [] →
      let s1 := (s.upTo due).updPart p fun y => { y with checked := i :: y.checked }
      let ok : Prop := if c.isWait then ∃ k, holderOf s (planCounter s c).2 = some k ∧ c.value ≤ holderValue s k
        else ∃ y ∈ x.issued, y.agent = c.agent ∧ y.unit = c.unit ∧ y.counter = (planCounter s c).1 ∧
          c.value ≤ y.amount ∧ y.cycle ≤ c.deadline
      (ok → exec (.deadlineCheck p i) s = .next s1) ∧
      (¬ ok → Leads (.deadlineCheck p i) s fun y => y.cyc = s1.cyc ∧ 6 ∈ (y.part p).broken ∧
        rf y (.part p) rPartDbrkcnt 31 0 = min (rf s (.part p) rPartDbrkcnt 31 0 + 1) (2 ^ 32 - 1) ∧ SameMemory s y))

/-- Epoch marks (R188, R189, R309): with a partition RUNNING the mark falls 8,192 FCLK cycles after the last one, the
epoch's number goes up by 1, and TIME_EPOCHOFS holds how far past its due time the mark falls; with none RUNNING it falls on
its due time. A new origin gives the epoch the number that device time gives. No byte of memory changes. The model's own
choices in it: log entries 2 and 63. -/
def EpochMarks : Prop :=
  ∀ (s : State) (up : Bool), s.bup.vglow = true → s.therm.stopped = false →
    let t := s.upTo (s.markCyc + 8192)
    let e0 := s.time.newE0.getD (rg s .time rTimeE0)
    let n := match s.time.newE0 with
      | some e => markNumber e t
      | none => if anyRunning s then (epochNum s + 1) % 2 ^ 64 else markNumber e0 t
    let past := pastDue n (rset t .time rTimeE0 e0)
    let o := past / 131072 + if up = true ∧ past % 131072 ≠ 0 then 1 else 0
    Leads (.epochMark up) s fun y => SameMemory s y ∧ epochNum y = n ∧
      rg y .time rTimeE0 = e0 ∧ y.time.newE0 = none ∧
      y.markCyc = (if anyRunning s then s.markCyc + 8192 else ((s.markCyc + 8192 : Nat) - o).toNat) ∧
      y.cyc = max s.cyc y.markCyc ∧
      (-(2 ^ 31) ≤ o → o < 2 ^ 31 → rf y .time rTimeEpochofs 31 0 = if anyRunning s then unsignedOf 32 o else 0)

/-! Tiles. -/

/-- Diagnosis, known-answer checks, restarts, flushes and resent flits (R62, R68, R70, R87, R94, R386): the second resend over
one link within a millisecond retires the tile. The model's own choices in it: log entry 10. -/
def Obligations.TileCare : Prop :=
  ∀ (a : Acc) (h : Fin 544) (v : Word) (s t : State),
    (taken (.diag a h v) s = some t → ((valueOf a v).bit 0 = true → (rg s (.tile h) rTileMxCap).bit 2 = true) →
      (logOf s h = none ∨ clusterPaused s (clusterOfPhys h) = true) → Leads (.diag a h v) s fun y =>
        (y.tile h).diagFrom = some s.cyc ∧ (y.tile h).diagWanted = false ∧
        (rg y (.tile h) rTileMxStatus).bit 3 = true ∧ rf y (.tile h) rTileId 21 19 = 3 ∧ SameMemory s y) ∧
    (∀ r c, (s.tile h).diagFrom = some c → Leads (.diagnosisDone h r) s fun y =>
      y.cyc = max s.cyc (c + 16384) ∧ (y.tile h).active = none ∧ (y.tile h).shadow = none ∧
      (y.tile h).loadDue = none ∧ (y.tile h).diagFrom = none ∧ (y.tile h).poison = List.range 1024 ∧
      (y.tile h).acc = (s.tile h).acc ∧ (rg y (.tile h) rTileMxStatus).bit 3 = false ∧
      rf y (.tile h) rTileMxStatus 11 8 = diagResult (s.upTo (c + 16384)) h r ∧
      (∀ row, r = .oneBadRow row → diagResult (s.upTo (c + 16384)) h r = 2 →
        (rg y (.tile h) rTileMxCap).bit 0 = true ∧ rf y (.tile h) rTileMxCap 15 8 = row) ∧
      (diagResult (s.upTo (c + 16384)) h r = 3 → h.val ∈ y.bup.retiredInService ∧ rf y (.tile h) rTileMxCap 31 24 = 0 ∧
        (r = .checkColumn → (rg y (.tile h) rTileMxCap).bit 2 = false)) ∧ SameMemory s y) ∧
    (∀ c, (s.tile h).katFrom = some c → unchecked s h = true → Leads (.katOverdue h) s fun y =>
      (rg y (.tile h) rTileMxStatus).bit 2 = true ∧ y.cyc = max s.cyc (c + 3000000) ∧
      y.tile h = { s.tile h with katFrom := none } ∧ SameMemory s y) ∧
    (taken (.ctxRestart a h v) s = some t →
      (∀ n, n < 8 → (valueOf a v).bit (8 + n) = true → ((s.tile h).ctxOf n).st = .halted) →
      Leads (.ctxRestart a h v) s fun y =>
        (∀ n, n < 8 → (y.tile h).ctxOf n = (if (valueOf a v).bit (8 + n) then
          { (s.tile h).ctxOf n with st := .idle, code := 0, wait := .none } else (s.tile h).ctxOf n)) ∧
        y.tile h = { s.tile h with ctx := (y.tile h).ctx } ∧ (∀ j, j ≠ h.val → y.tile j = s.tile j) ∧ y.regs = t.regs) ∧
    (∀ l, taken (.flush a h v) s = some t → logOf s h = some l → Leads (.flush a h v) s fun y =>
      (∀ q, q < 3 → (valueOf a v).bit q = true → ((y.tile h).qOf q).held = [] ∧ ((y.tile h).qOf q).last = 0 ∧
        ((y.tile h).qOf q).flights = ((s.tile h).qOf q).flights) ∧
      (∀ q, (valueOf a v).bit q = false → (y.tile h).qOf q = (s.tile h).qOf q) ∧
      SameMemory s y ∧ (∀ j, j ≠ h.val → y.tile j = s.tile j) ∧ y.regs = t.regs) ∧
    (∀ m : MeshResend, m.late = false →
      let last := (s.tile h).meshBad
      let again := last.has m.link && decide (s.cyc ≤ SMap.get 0 last m.link + 1500000)
      (again = false → exec (.meshResend h m) s = .next ((logEvent (srcTile h) .meshResend 0 s).updTile h fun x =>
        { x with meshBad := SMap.put m.link s.cyc x.meshBad })) ∧
      (again = true → Leads (.meshResend h m) s fun y => h.val ∈ y.bup.retiredInService ∧ SameMemory s y))

/-! Memory upkeep. -/

/-- Scrub (R232): a pass starts over the range that the register names and stops without its summary; a refresh slot
refreshes the next row and, at its cycle of the epoch (R198), serves a retirement's copy or reads the pass's next row and
rewrites its correctable codewords; the pass ends with its summary, a stack's once no READY core holds it up (R257), and with
PERIOD the next one starts that many hours after the last one's start. No byte of memory changes. The model's own choices in
it: log entries 10 and 25. -/
def Obligations.ScrubPasses : Prop :=
  ∀ (a : Acc) (h : Fin 544) (k : Fin 8) (v : Word) (s t : State),
    (taken (.slScrubStart a h v) s = some t → (valueOf a v).bit 1 = false → slPass s h = false →
      rf t (.tile h) rTileSlScrub 63 46 + rf t (.tile h) rTileSlScrub 45 28 + 1 ≤ 262144 →
      pllOff s (clusterOfPhys h) = false →
        exec (.slScrubStart a h v) s = .next ((rput t (.tile h) rTileSlScrubstat 63 62 1).updTile h fun y =>
          { y with scrub := { started := s.cyc, next := rf t (.tile h) rTileSlScrub 63 46 * 1024 } })) ∧
    (taken (.slScrubStop a h v) s = some t → (valueOf a v).bit 0 = false → (slPass s h = true → t = s) →
      exec (.slScrubStop a h v) s = .next (rput t (.tile h) rTileSlScrubstat 63 62 0)) ∧
    (taken (.memcScrubStart a k v) s = some t → (valueOf a v).bit 1 = false → memcPass s k = false →
      (rf t (.memc k) rMemcScrub 63 40 + rf t (.memc k) rMemcScrub 39 16 + 1) * 4096 ≤ stackSize k →
        exec (.memcScrubStart a k v) s = .next ((rput t (.memc k) rMemcScrubstat 63 62 1).setStack k
          { s.stack k with
            scrub := { started := s.cyc, next := stackBase k + rf t (.memc k) rMemcScrub 63 40 * 4096 }, waived := [] })) ∧
    (taken (.memcScrubStop a k v) s = some t → (valueOf a v).bit 0 = false → (memcPass s k = true → t = s) →
      exec (.memcScrubStop a k v) s = .next (rput t (.memc k) rMemcScrubstat 63 62 0)) ∧
    (nextSlot s h = none → exec (.sliceRefreshSlot h) s = .next s) ∧
    (∀ c, nextSlot s h = some c →
      let x := (s.tile h).scrub
      let r := clusterOfPhys h
      let s1 := (s.upTo (c + 64)).updTile h fun y => { y with refreshRow := (y.refreshRow + 1) % 4128, lastSlot := some c }
      s.markCyc ≤ c ∧ c < s.markCyc + 8192 ∧
      (s.therm.slotsWere.has r = false → (c - s.markCyc) % (8192 / max 1 (rf s (.tile (r * 17)) rTileSlState 20 16)) = 0) ∧
      (pllOff s r = true → exec (.sliceRefreshSlot h) s = .next s1) ∧
      (pllOff s r = false → (s.tile h).rowret.isSome → (s.tile h).rowCopied = false →
        exec (.sliceRefreshSlot h) s = .next (s1.updTile h fun y => { y with rowCopied := true })) ∧
      (pllOff s r = false → ((s.tile h).rowret.isSome → (s.tile h).rowCopied = true) →
        (rf s (.tile h) rTileSlScrubstat 63 62 ≠ 1 ∨ (sliceRange s h).2 ≤ x.next → exec (.sliceRefreshSlot h) s = .next s1) ∧
        (rf s (.tile h) rTileSlScrubstat 63 62 = 1 → x.next < (sliceRange s h).2 → Leads (.sliceRefreshSlot h) s fun y =>
          (y.tile h).scrub.next = x.next + 1024 ∧ (y.tile h).scrub.started = x.started ∧ SameMemory s y ∧ y.cyc = s1.cyc ∧
          (y.tile h).refreshRow = ((s.tile h).refreshRow + 1) % 4128 ∧ (y.tile h).lastSlot = some c ∧
          ∀ w, x.next ≤ w → w < x.next + 1024 → eccCheck s (.slice h) w = .corrected → eccCheck y (.slice h) w = .clean))) ∧
    (let p := (s.tile h).scrub
     (rf s (.tile h) rTileSlScrubstat 63 62 ≠ 1 ∨ p.next < (sliceRange s h).2 → exec (.scrubPassDone (.slice h)) s = .next s) ∧
     (rf s (.tile h) rTileSlScrubstat 63 62 = 1 → (sliceRange s h).2 ≤ p.next → p.first < 2 ^ 28 →
      Leads (.scrubPassDone (.slice h)) s fun y =>
        rf y (.tile h) rTileSlScrubstat 63 62 = (if rf s (.tile h) rTileSlScrub 15 8 = 0 then 0 else 2) ∧
        rf y (.tile h) rTileSlScrubstat 23 0 = min p.corr 0xFFFFFF ∧
        rf y (.tile h) rTileSlScrubstat 39 24 = min p.unc 0xFFFF ∧
        rf y (.tile h) rTileSlScrubstat 61 40 = p.first / 64 ∧ SameMemory s y)) ∧
    (maintenanceWaits s k true = true → exec (.scrubPassDone (.stack k)) s = .next s) ∧
    (let p := (scrubBytes (.stack k) (s.stack k).scrub.next (stackRange s k).2 (s.stack k).scrub s).1
     rf s (.memc k) rMemcScrubstat 63 62 = 1 → maintenanceWaits s k true = false →
      Leads (.scrubPassDone (.stack k)) s fun y =>
        rf y (.memc k) rMemcScrubstat 63 62 = (if rf s (.memc k) rMemcScrub 15 8 = 0 then 0 else 2) ∧
        rf y (.memc k) rMemcScrubstat 31 0 = min p.corr 0xFFFFFFFF ∧
        rf y (.memc k) rMemcScrubstat 47 32 = min p.unc 0xFFFF ∧
        rg y (.memc k) rMemcScrubfirst = (if p.unc = 0 then 0 else BitVec.ofNat 64 (2 ^ 63 + (p.first - stackBase k))) ∧
        SameMemory s y) ∧
    (pllOff s (clusterOfPhys h) = true → exec (.scrubPeriod (.slice h)) s = .next s) ∧
    (rf s (.tile h) rTileSlScrubstat 63 62 = 2 → pllOff s (clusterOfPhys h) = false → Leads (.scrubPeriod (.slice h)) s fun y =>
      y.cyc = max s.cyc ((s.tile h).scrub.started + rf s (.tile h) rTileSlScrub 15 8 * 5400000000000) ∧
      rf y (.tile h) rTileSlScrubstat 63 62 = 1 ∧
      (y.tile h).scrub = { started := y.cyc, next := (sliceRange s h).1 } ∧ SameMemory s y) ∧
    (rf s (.memc k) rMemcScrubstat 63 62 = 2 → Leads (.scrubPeriod (.stack k)) s fun y =>
      y.cyc = max s.cyc ((s.stack k).scrub.started + rf s (.memc k) rMemcScrub 15 8 * 5400000000000) ∧
      rf y (.memc k) rMemcScrubstat 63 62 = 1 ∧
      (y.stack k).scrub = { started := y.cyc, next := (stackRange s k).1 } ∧ (y.stack k).waived = [] ∧ SameMemory s y)

/-- Retirement, injection, drip counters and margin sweeps (R229, R230, R231, R234 to R238): what their commands leave
in the registers, in the spares and in the controller. The model's own choices in it: log entry 53. -/
def Obligations.RetirementAndTests : Prop :=
  ∀ (a : Acc) (h : Fin 544) (k : Fin 8) (v : Word) (s t : State),
    (let w := rg t (.tile h) rTileSlRowret
     let used := SMap.get 0 (s.tile h).spareUsed (rowBank w)
     taken (.slRowret a h v) s = some t → rf s (.tile h) rTileSlRowret 59 58 ≠ 1 → pllOff s (clusterOfPhys h) = false →
      (used < 32 → exec (.slRowret a h v) s = .next ((rput t (.tile h) rTileSlRowret 59 58 1).updTile h fun y =>
        { y with rowret := some (rowBank w * 4096 + w.field 27 16), rowCopied := false
                 spareUsed := SMap.put (rowBank w) (used + 1) y.spareUsed })) ∧
      (32 ≤ used → exec (.slRowret a h v) s = .next
        (rput (rput (rput t (.tile h) rTileSlRowret 59 58 3) (.tile h) rTileSlRowret 15 0 Code.spareExhausted.toNat)
          (.tile h) rTileSlRowret 53 48 0))) ∧
    (pllOff s (clusterOfPhys h) = true → exec (.slRowretDone h) s = .next s) ∧
    (∀ key, (s.tile h).rowret = some key → pllOff s (clusterOfPhys h) = false →
      ((s.tile h).rowCopied = true ∨ (nextSlot s h).isSome) → Leads (.slRowretDone h) s fun y =>
      (y.tile h).rowret = none ∧ (y.tile h).rowCopied = false ∧
      rf y (.tile h) rTileSlRowret 53 48 = (32 - SMap.get 0 (s.tile h).spareUsed (key / 4096)) % 64 ∧
      (y.tile h).rowOnSpare = SMap.put key (SMap.get 0 (s.tile h).spareUsed (key / 4096) - 1) (s.tile h).rowOnSpare ∧
      rf y (.tile h) rTileSlRowret 59 58 = 2 ∧ rf y (.tile h) rTileSlRowret 15 0 = 0 ∧ SameMemory s y) ∧
    (let w := rg t (.memc k) rMemcBankret
     let ch := w.field 28 24
     taken (.bankret a k v) s = some t → rf s (.memc k) rMemcBankret 59 58 ≠ 1 → w.field 21 16 < stackBanks k →
      (spareFree s k ch = true → Leads (.bankret a k v) s fun y =>
        y.stack k = { s.stack k with
          sparesUsed := SMap.put ch 1 (s.stack k).sparesUsed, bankret := some (ch, w.field 21 16), copyFrom := s.cyc, waived := [] } ∧
        rf y (.memc k) rMemcBankret 59 58 = 1 ∧ (rg y (.memc k) rMemcBankret).bit 49 = false) ∧
      (spareFree s k ch = false → Leads (.bankret a k v) s fun y => y.stack k = s.stack k ∧
        rf y (.memc k) rMemcBankret 59 58 = 3 ∧ rf y (.memc k) rMemcBankret 15 0 = Code.spareExhausted.toNat)) ∧
    (maintenanceWaits s k false = true → exec (.bankretDone k) s = .next s) ∧
    (∀ ch bank, (s.stack k).bankret = some (ch, bank) → maintenanceWaits s k false = false → Leads (.bankretDone k) s fun y =>
      (y.stack k).bankret = none ∧ (y.stack k).retired = (s.stack k).retired ++ [(ch, bank)] ∧
      rf y (.memc k) rMemcBankret 59 58 = 2 ∧ rf y (.memc k) rMemcBankret 15 0 = 0 ∧ SameMemory s y) ∧
    (taken (.tileInjArm a h v) s = some t → (valueOf a v).bit 62 = false → tileInUse s h = false →
      ((rg t (.tile h) rTileInjaddr).bit 61 = true → rf t (.tile h) rTileInjaddr 27 22 = 0) →
        exec (.tileInjArm a h v) s = .next t) ∧
    (taken (.tileInjRawrd a h v) s = some t → tileInUse s h = false →
      ((rg t (.tile h) rTileInjaddr).bit 61 = true → rf t (.tile h) rTileInjaddr 27 22 = 0) →
        let ts := (rg t (.tile h) rTileInjaddr).bit 61
        let x := rawWord s (if ts then .store h else .slice h) (rf t (.tile h) rTileInjaddr 27 2 * 4)
        exec (.tileInjRawrd a h v) s = .next (rset t (.tile h) rTileInjmask
          (BitVec.ofNat 64 (x.1 + x.2 % (if ts then 2 ^ 8 else 2 ^ 32) * 2 ^ 32)))) ∧
    (let w := stackBase k + rf t (.memc k) rMemcInjaddr 35 2 * 4
     (rf t (.memc k) rMemcInjaddr 35 2 * 4 < stackSize k → stackInUse s k w = false → (cwSize s (.stack k) w = 32 → rf t (.memc k) rMemcInjaddr 61 60 = 0) →
      (taken (.memcInjArm a k v) s = some t → (valueOf a v).bit 62 = false → exec (.memcInjArm a k v) s = .next t) ∧
      (taken (.memcInjRawrd a k v) s = some t →
        let x := rawWord s (.stack k) w
        exec (.memcInjRawrd a k v) s = .next (rset t (.memc k) rMemcInjmask
          (BitVec.ofNat 64 (x.1 + (x.2 >>> (32 * rf t (.memc k) rMemcInjaddr 61 60)) % 2 ^ 32 * 2 ^ 32)))))) ∧
    (taken (.marginStart a k v) s = some t → rf t (.memc k) rMemcMargctrl 3 2 ≠ 0 → stackRunning s k = false →
      Leads (.marginStart a k v) s fun y => rf y (.memc k) rMemcMargctrl 1 1 = 1 ∧ rf y (.memc k) rMemcState 7 4 = 4 ∧
        y.stack k = { s.stack k with margFrom := s.cyc } ∧ SameMemory s y) ∧
    (∀ ms : List Margin, ms.length = 32 → rf s (.memc k) rMemcMargctrl 1 1 = 1 → Leads (.marginDone k ms) s fun y =>
      rf y (.memc k) rMemcMargctrl 1 1 = 0 ∧ rf y (.memc k) rMemcState 7 4 = 3 ∧ SameMemory s y ∧
      ∀ c (m : Margin), ms[c]? = some m → m.vhi < 256 → m.vlo < 256 → m.tright < 256 → m.tleft < 256 →
        let kind := rf s (.memc k) rMemcMargctrl 3 2
        (rg y (.memc k) (rMemcMarginc c)).bit 63 = true ∧
        (kind % 2 = 1 → rf y (.memc k) (rMemcMarginc c) 15 8 = m.tright ∧ rf y (.memc k) (rMemcMarginc c) 7 0 = m.tleft) ∧
        (2 ≤ kind → rf y (.memc k) (rMemcMarginc c) 31 24 = m.vhi ∧ rf y (.memc k) (rMemcMarginc c) 23 16 = m.vlo) ∧
        ((rg y (.memc k) (rMemcMarginc c)).bit 62 = true ↔
          kind % 2 = 1 ∧ (m.tright < 6 ∨ m.tleft < 6) ∨ 2 ≤ kind ∧ (m.vhi < 12 ∨ m.vlo < 12))) ∧
    (∀ d : DripDomain,
      let x := dripAt d
      let n := rf s x.blk x.off (x.count + 7) x.count
      exec (.dripLeak d) s = .next (if rf s x.blk x.cfg 31 16 ≠ 0 ∧ 0 < n ∧ n < rf s x.blk x.cfg 7 0 then
        rput s x.blk x.off (x.count + 7) x.count (n - 1) else s)) ∧
    (taken (.slclr a h v) s = some t → Leads (.slclr a h v) s fun y =>
      rf y (.tile h) rTileDrip 47 40 = 0 ∧ rf y (.tile h) rTileDrip 63 48 = 0 ∧ SameMemory s y) ∧
    (taken (.tsclr a h v) s = some t → Leads (.tsclr a h v) s fun y =>
      rf y (.tile h) rTileDrip 23 16 = 0 ∧ rf y (.tile h) rTileDrip 39 24 = 0 ∧ SameMemory s y) ∧
    (∀ c : Fin 32, taken (.memcDripClr a k c v) s = some t → Leads (.memcDripClr a k c v) s fun y =>
      rf y (.memc k) (rMemcDripc c) 15 8 = 0 ∧ rf y (.memc k) (rMemcDripc c) 31 16 = 0 ∧ SameMemory s y) ∧
    (∀ c : Fin 512, taken (.grtCdripClr a c v) s = some t → Leads (.grtCdripClr a c v) s fun y =>
      rf y (.grt (c / 128)) (rGrtCdripk (c % 128)) 15 8 = 0 ∧ rf y (.grt (c / 128)) (rGrtCdripk (c % 128)) 31 16 = 0 ∧
      SameMemory s y) ∧
    (taken (.dripcfgWrite a (.tile h) v) s = some t → rf t (.tile h) rTileDripcfg 7 0 ≠ 0 →
      Leads (.dripcfgWrite a (.tile h) v) s fun y => rg y (.tile h) rTileDripcfg = rg t (.tile h) rTileDripcfg ∧
        rf y (.tile h) rTileDrip 47 40 = min (rf s (.tile h) rTileDrip 47 40) (rf t (.tile h) rTileDripcfg 7 0) ∧
        rf y (.tile h) rTileDrip 23 16 = min (rf s (.tile h) rTileDrip 23 16) (rf t (.tile h) rTileDripcfg 7 0))

/-- Stack controllers and fills (R209, R211 to R214, R217, R224, R225, R237): a request outside its partition's ranges
touches nothing and ends with OUT_OF_RANGE; one within them is served, guaranteed and at a fixed time where its regulator's
guaranteed bucket covers it and no excess access of its partition to the unit stands before it, or waits while its ceiling
bucket is short or a margin sweep runs; excess accesses end in rotation over the partitions; a refresh leaves everything as it
is; a fill's end leaves zeros. The model's own choices in it: log entries 6, 25, 34 and 35. -/
def Obligations.StackService : Prop :=
  (∀ (r : StackReq) (s : State),
    (∀ k x p f, stackOf r.addr = some (k, x) → rangeAt s k x = some (p, f) → p ≠ r.part) →
      exec (.stackRequest r) s = .next (s.send (.stackReply r (some .outOfRange)))) ∧
  (∀ (r : StackReq) (s : State) (k x : Nat) (fine : Bool), stackOf r.addr = some (k, x) →
    rangeAt s k x = some (r.part.val, fine) → (s.stack k).waitingReqs = [] →
      let c := channelOf k x
      let b := regNow s k r.part c
      let q := if fine then 324 else 768
      let unit := if fine then 32 else 128
      let behind : Prop := ∃ y ∈ (s.stack k).accesses, y.guaranteed = false ∧ y.req.part = r.part ∧
        ∃ z, stackOf y.req.addr = some (k, z) ∧ z / unit = x / unit
      let served (g : Nat) (ok : Bool) (due : Option Nat) := s.setStack k { s.stack k with
        waitingReqs := [], regs := SMap.put (regKey r.part c) ⟨g, b.c - q, s.cyc⟩ (s.stack k).regs
        accesses := (s.stack k).accesses ++ [⟨r, ok, due⟩] }
      (b.c < q ∨ margining s k = true →
        exec (.stackRequest r) s = .next (s.setStack k { s.stack k with waitingReqs := [r] })) ∧
      (q ≤ b.c → margining s k = false →
        (q ≤ b.g → ¬ behind → exec (.stackRequest r) s = .next (served (b.g - q) true (r.tile.map fun t =>
          s.cyc + if k % 4 / 2 = t.val / 256 then 320 else 320 + 2 * crossing s))) ∧
        (q ≤ b.g → behind → exec (.stackRequest r) s = .next (served (b.g - q) false none)) ∧
        (b.g < q → exec (.stackRequest r) s = .next (served b.g false none)))) ∧
  (∀ (i : Nat) (s : State) (k j : Nat) (x : Access), (allAccesses s)[i]? = some (k, j, x) → (s.stack k).waitingReqs = [] →
    let s1 := ((match x.due with | some d => s.upTo d | none => s)).send (.stackReply x.req none)
    let left := { s.stack k with accesses := (s.stack k).accesses.eraseIdx j, waitingReqs := [] }
    (x.guaranteed = true → exec (.stackAccessDone i) s = .next (s1.setStack k left)) ∧
    (x.guaranteed = false → excessTurn s k j x = true → exec (.stackAccessDone i) s =
      .next (s1.setStack k { left with turn := SMap.put (x.channel k) x.req.part (s.stack k).turn })) ∧
    (x.guaranteed = false → excessTurn s k j x = false → exec (.stackAccessDone i) s = .next s)) ∧
  (∀ (k : Fin 8) (c b : Nat) (s : State), exec (.stackRefresh k c b) s = .next s) ∧
  (∀ (c : Fin 32) (s : State), s.bup.fills.contains (.cluster c) = true → Leads (.fillDone (.cluster c)) s fun y =>
    y.bup = { s.bup with fills := s.bup.fills.filter (· != .cluster c) } ∧
    (∀ j, j < 17 → (∀ x, x < 0x400000 → (y.tile (c.val * 17 + j)).store.read x = 0) ∧
      (∀ x, x < 0x10000000 → (y.tile (c.val * 17 + j)).slice.read x = 0) ∧
      (rg y (.tile (c.val * 17 + j)) rTileSlState).bit 0 = false) ∧
    (∀ h, (h < c.val * 17 ∨ c.val * 17 + 17 ≤ h) → y.tile h = s.tile h) ∧ y.mem = s.mem ∧ y.grt = s.grt) ∧
  (∀ (k : Fin 8) (r : Fin 64) (s : State), s.bup.fills.contains (.range k r) = true →
    Leads (.fillDone (.range k r)) s fun y =>
      let w := rgEff s (.memc k) (rMemcRanger r)
      let mine (g : Nat) : Prop := (k.val, g) ∈ s.bup.handed ∧ w.field 9 0 ≤ g ∧ g < w.field 9 0 + w.field 41 32
      (∀ x, (∃ g, mine g ∧ stackBase k + g * 0x4000000 ≤ x ∧ x < stackBase k + (g + 1) * 0x4000000) → y.mem.read x = 0) ∧
      (∀ x, (∀ g, mine g → ¬ (stackBase k + g * 0x4000000 ≤ x ∧ x < stackBase k + (g + 1) * 0x4000000)) →
        y.mem.read x = s.mem.read x) ∧
      (∀ i g, (i, g) ∈ y.bup.handed ↔ (i, g) ∈ s.bup.handed ∧ ¬ (i = k.val ∧ mine g)) ∧ y.tiles = s.tiles ∧ y.grt = s.grt)

/-! Grotto cores. -/

/-- Grotto cores (R243, R245 to R259): a launch counts, and starts a core that holds an image at its entry with g1 its
launches and g2 its AGENT, or halts it; LAUNCH adds 1 to the launch counter; RESTART makes a HALTED core IDLE; PEAK is
set to the present number; refresh falls due, is owed by a READY core up to nine, which pauses it, and ends after 48 grotto
cycles; queued accesses are served before the next instruction, and counted and reported where one of them was not planned; a
maintenance unit that has waited 10 ms is queued. The model's own choices in it: log entries 25, 74 and 95. -/
def Obligations.GrottoCores : Prop :=
  ∀ (a : Acc) (k : Fin 512) (gs : Fin 4) (v : Word) (s t : State),
    let g := s.grotto k
    let st := k.val / 128
    ((launchAt s k = none ∨ ∃ due, launchAt s k = some due ∧ launchesFirst s k due = true) →
      exec (.grottoLaunch k) s = .next s) ∧
    (∀ due, g.launchDue = some due → g.st = .idle → launchable s k = true → g.launches.toNat < holderValue s (.grotto k 0) →
      launchesFirst s k due = false →
      let s1 := (s.upTo due).setGrotto k { g with launches := g.launches + 1, launchDue := none }
      (g.img = none → exec (.grottoLaunch k) s = .next (haltGrotto k .wrongState s1)) ∧
      (∀ i, g.img = some i →
        (serviceMode s st = true → 64 ≤ activeCores s1 st → exec (.grottoLaunch k) s = .next (haltGrotto k .grottoBusy s1)) ∧
        ((serviceMode s st = true → activeCores s1 st < 64) → Leads (.grottoLaunch k) s fun y =>
          y.grotto k = { g with
            launches := g.launches + 1, launchDue := none, st := .ready, pc := i.loadOff + i.entry
            g := SMap.put 1 (BitVec.ofNat 32 (g.launches + 1).toNat) (SMap.put 2 (BitVec.ofNat 32 k.val) g.g) } ∧
          (∀ j, j ≠ k.val → y.grotto j = s.grotto j) ∧ y.cyc = max s.cyc due ∧ SameMemory s y))) ∧
    (taken (.launch a k v) s = some t → (valueOf a v).bit 0 = false → serviceMode s st = false →
      addAbsorbed s (.grotto k 0) = false → Leads (.launch a k v) s fun y =>
        holderValue y (.grotto k 0) = min (holderValue s (.grotto k 0) + 1) (2 ^ 64 - 1) ∧
        (g.st = .idle → g.launchDue = none → g.launches.toNat ≤ holderValue s (.grotto k 0) →
          holderValue s (.grotto k 0) < 2 ^ 64 - 1 → (y.grotto k).launchDue = some (s.cyc + 12)) ∧
        (∀ j, j ≠ k.val → y.grotto j = s.grotto j) ∧ SameMemory s y ∧ y.tiles = s.tiles) ∧
    (taken (.grtRestart a k v) s = some t → (valueOf a v).bit 2 = false → g.st = .halted → Leads (.grtRestart a k v) s fun y =>
      (y.grotto k).st = .idle ∧ (y.grotto k).code = 0 ∧ (y.grotto k).pc = g.pc ∧ (y.grotto k).g = g.g ∧
      (y.grotto k).w = g.w ∧ (y.grotto k).cnt = g.cnt ∧ (∀ j, j ≠ k.val → y.grotto j = s.grotto j) ∧ SameMemory s y ∧
      y.regs = t.regs) ∧
    (taken (.grtMode a gs v) s = some t → (valueOf a v).bit 1 = false →
      ((rg s (.grt gs) rGrtMode).bit 0 = false → (rg t (.grt gs) rGrtMode).bit 0 = true → stackOwnerRunning s gs = false) →
      ((rg s (.grt gs) rGrtMode).bit 0 = true → (rg t (.grt gs) rGrtMode).bit 0 = false → activeCores s gs ≤ 64) →
        exec (.grtMode a gs v) s = .next t) ∧
    (taken (.peakclr a gs v) s = some t →
      (rg t (.grt gs) rGrtMode).bit 0 = (rg s (.grt gs) rGrtMode).bit 0 →
        exec (.peakclr a gs v) s = .next (rput t (.grt gs) rGrtState 23 16 (activeCores s gs))) ∧
    (let due (x : Grotto) : Grotto := if x.running = 0 then { x with running := 1, opFrom := s.cyc } else x
     exec (.grottoRefreshDue k) s = .next (s.setGrotto k (match g.st with
      | .ready => if g.owed < 9 then { g with owed := g.owed + 1 } else due { g with owed := g.owed + 1, st := .paused }
      | .wait => due { g with owed := g.owed + 1 }
      | .paused => { g with owed := g.owed + 1 }
      | .idle | .halted =>
        if g.running = 0 then { g with running := 2, opFrom := s.cyc } else { g with owed := g.owed + 1 }))) ∧
    (g.st = .ready → 9 ≤ g.owed → exec (.grottoPause k) s =
      let s1 := s.upTo (boardOf (.grotto k) s).next
      .next (s1.setGrotto k (if g.running = 0 then { g with st := .paused, running := 1, opFrom := s1.cyc }
        else { g with st := .paused }))) ∧
    (g.st ≠ .ready ∨ g.owed < 9 → exec (.grottoPause k) s = .next s) ∧
    (g.running = 0 → exec (.grottoRefreshOpDone k) s = .next s) ∧
    (g.running ≠ 0 →
      let left := if g.running = 2 then g.owed else g.owed - 1
      exec (.grottoRefreshOpDone k) s = .next ((s.upTo (g.opFrom + 96)).setGrotto k { g with
        owed := left, running := if g.st ≠ .ready ∧ 0 < left then 1 else 0, opFrom := g.opFrom + 96
        st := if g.st = .paused ∧ left = 0 then .ready else g.st })) ∧
    (let b := boardOf (.grotto k) s
     let s1 := s.setGrotto k { g with queue := [] }
     let b2 := { b with next := max s.cyc b.next + 2 * (16 + g.queue.length) }
     let s2 := { s1 with boards := SMap.put (unitKey (.grotto k)) b2 s.boards }
     (g.queue = [] → exec (.ordinaryAccessService k) s = .next s) ∧
     (g.queue ≠ [] → g.st ≠ .ready → exec (.ordinaryAccessService k) s = .next s1) ∧
     (g.queue ≠ [] → g.st = .ready → (∀ x ∈ g.queue, x.planned = true) → exec (.ordinaryAccessService k) s = .next s2) ∧
     (g.st = .ready → (∃ x ∈ g.queue, x.planned = false) → Leads (.ordinaryAccessService k) s fun y =>
      y.grotto k = { g with queue := [] } ∧ y.boards = s2.boards ∧
      rf y (.grt st) rGrtIntrude 31 0 = min (rf s (.grt st) rGrtIntrude 31 0 + 1) (2 ^ 32 - 1) ∧
      rf y (.grt st) rGrtIntrude 63 32 = min (rf s (.grt st) rGrtIntrude 63 32 + 16 + g.queue.length) (2 ^ 32 - 1) ∧
      (∀ p, p < 32 → partOfGrotto s k = some p → serviceMode s st = true → 10 ∈ (y.part p).broken) ∧ SameMemory s y)) ∧
    (maintenanceWait s (4 + st) k = none → exec (.scrubWaitExpiry k) s = .next s) ∧
    (∀ since, maintenanceWait s (4 + st) k = some since →
      let s1 := s.upTo (since + 15000000)
      exec (.scrubWaitExpiry k) s = .next ((s1.setGrotto k
        { g with queue := (g.queue ++ [BankUnit.mk false true s1.cyc]).take 128 }).setStack (4 + st)
        { s.stack (4 + st) with waived := k.val :: (s.stack (4 + st)).waived }))

/-! The fabric. -/

/-- Links (R288 to R294, R303): enabling, RETRAIN and RELOCK; training ends in FAULT below LANEMIN or where the peer has the
device's own ID, else sixteen echoes make the link UP at the lanes that both sides have, with its measured latency locked
unless a partition is RUNNING; frames are acknowledged and counted, with credits and replay buffers kept, replayed and,
sixteen failures in a row, bring the link DOWN; a failing lane narrows the link; an echo updates the measured latency. The
model's own choices in it: log entries 29, 39 and 98. -/
def Obligations.FabricLinks : Prop :=
  ∀ (a : Acc) (l : Fin 48) (v : Word) (s t : State),
    let old := rg s .fab (rFabLinkctrll l)
    let new := rg t .fab (rFabLinkctrll l)
    let legal : Prop := new.field 5 4 ≠ 3 ∧ new.field 7 6 ≠ 3 ∧ (old.bit 0 = true → new.field 7 4 = old.field 7 4) ∧
      (linkState s l = 4 → new.bit 3 = old.bit 3)
    let k := s.link l
    let emptied (y : State) : Prop := y.link l = { owed0 := (y.link l).owed0, owed1 := (y.link l).owed1 }
    let idle : Prop := k.sched = [] ∧ k.vc1 = [] ∧ k.vc0 = []
    (taken (.linkEn a l v) s = some t → legal → (valueOf a v).field 2 1 = 0 →
      (new.bit 0 = true → old.bit 0 = false → 10 ≤ rf s .bup rBupState 47 44 → Leads (.linkEn a l v) s fun y =>
        linkState y l = 1 ∧ rf y .fab (rFabLinkstatl l) 3 0 = 0 ∧ y = { t with regs := y.regs }) ∧
      (new.bit 0 = false → linkState s l ≠ 0 → Leads (.linkEn a l v) s fun y =>
        linkState y l = 0 ∧ emptied y ∧ SameMemory s y) ∧
      (new.bit 0 = false → linkState s l = 0 → exec (.linkEn a l v) s = .next t)) ∧
    (taken (.retrain a l v) s = some t → legal → (valueOf a v).bit 2 = false → anyRunning s = false → new.bit 0 = true →
      10 ≤ rf s .bup rBupState 47 44 → Leads (.retrain a l v) s fun y =>
        linkState y l = 1 ∧ rf y .fab (rFabLinkstatl l) 3 0 = 0 ∧ y = { t with regs := y.regs }) ∧
    (taken (.relock a l v) s = some t → legal → (valueOf a v).bit 1 = false → anyRunning s = false → new.bit 0 = true →
      old.bit 0 = true → exec (.relock a l v) s = .next (rput t .fab (rFabLinklatl l) 47 32 (rf s .fab (rFabLinklatl l) 31 16))) ∧
    (∀ r : LinkTraining, (linkState s l = 1 ∨ linkState s l = 2) →
      let m := adoptLanes r.lanes r.peerWidth
      let ds := ((r.echoes.take 16).map fun x : EchoTimes => (x.since : Int) - (x.t3 - x.t2)).reverse
      (laneMin s l ≤ laneWidth m → m ≠ 0 → (rg s .fab rFabDevid).bit 14 = false →
        exec (.linkUp l r) s = .next (rput s .fab (rFabLinkstatl l) 40 38 2)) ∧
      (laneMin s l ≤ laneWidth m → m ≠ 0 → (rg s .fab rFabDevid).bit 14 = true → r.peerDev.toNat ≠ devId s →
        Leads (.linkUp l r) s fun y => (y.link l).echoes = ds ∧ (y.link l).lanesWanted = m ∧
          rf y .fab (rFabLinkstatl l) 63 50 = r.peerDev.toNat ∧ rf y .fab (rFabLinkstatl l) 49 44 = r.peerLink.val ∧
          SameMemory s y ∧
          if r.echoes.length < 16 then linkState y l = 3
          else linkState y l = 4 ∧ rf y .fab (rFabLinkstatl l) 43 41 = laneWidth m ∧
            rf y .fab (rFabLinkstatl l) 3 0 = m.toNat ∧ wmeas y l = min 0xFFFF (meanCycles ds) ∧
            wlock y l = if anyRunning s then wlock s l else wmeas y l) ∧
      (laneMin s l ≤ laneWidth m → m ≠ 0 → (rg s .fab rFabDevid).bit 14 = true → r.peerDev.toNat = devId s →
        Leads (.linkUp l r) s fun y => linkState y l = 6 ∧
          rf y .fab (rFabLinkstatl l) 31 16 = Code.illegalValue.toNat ∧ emptied y) ∧
      (laneWidth m < laneMin s l ∨ m = 0 → Leads (.linkUp l r) s fun y => linkState y l = 6 ∧
        rf y .fab (rFabLinkstatl l) 31 16 = Code.linkFault.toNat ∧ emptied y)) ∧
    (linkState s l = 4 ∨ linkState s l = 3 → ∀ (n : Nat) (c : Control), Leads (.frameReceive l (.good n c)) s fun y =>
      let heard : Link := { k with
        badRow := 0, replay := 0, buf := ackUnits c.acked k.buf
        credit0 := min 512 (k.credit0 + c.credit0), credit1 := min 512 (k.credit1 + c.credit1), owed0 := 0, owed1 := 0 }
      let narrower := linkState s l = 4 ∧ 0 < c.width ∧ c.width < linkWidth s l
      rf y .fab (rFabLinkerrl l) 31 0 = min (rf s .fab (rFabLinkerrl l) 31 0 + n) (2 ^ 32 - 1) ∧
      (y.link l).badRow = 0 ∧ (y.link l).replay = 0 ∧ SameMemory s y ∧
      (∃ new, y.sent = new ++ .frame l true k.owed0 k.owed1 :: s.sent ∧
        (c.echo = true → ∃ t3, .echoAnswer l (s.time.t / 12288 : Nat) t3 (rf s .time rTimeStat 15 12)
          (rf s .time rTimeStat 2 0 == 2) (rg s .time rTimeE0) ∈ new)) ∧
      (narrower → linkState y l = 5) ∧ (¬ narrower → linkState y l = linkState s l ∧ (idle → y.link l = heard))) ∧
    (linkState s l = 4 ∨ linkState s l = 3 →
      (k.badRow + 1 ≠ 16 → exec (.frameReceive l .crcError) s =
        .next ((s.setLink l { k with badRow := k.badRow + 1 }).send (.frame l false 0 0))) ∧
      (k.badRow + 1 = 16 → Leads (.frameReceive l .crcError) s fun y => linkState y l = 0 ∧ emptied y) ∧
      Leads (.frameReceive l .uncorrectable) s fun y =>
        rf y .fab (rFabLinkerrl l) 47 32 = min (rf s .fab (rFabLinkerrl l) 47 32 + 1) (2 ^ 16 - 1)) ∧
    (linkState s l = 4 → k.replay + 1 ≠ 16 → Leads (.replay l) s fun y =>
      rf y .fab (rFabLinkerrl l) 63 48 = min (rf s .fab (rFabLinkerrl l) 63 48 + 1) (2 ^ 16 - 1) ∧
      y.link l = { k with replay := k.replay + 1 } ∧
      y.sent = (k.buf.map fun x => Msg.fabric l x).reverse ++ s.sent) ∧
    (linkState s l = 4 → k.replay + 1 = 16 → Leads (.replay l) s fun y => linkState y l = 0 ∧ emptied y) ∧
    (∀ lanes : BitVec 4, linkState s l = 4 → BitVec.ofNat 4 (rf s .fab (rFabLinkstatl l) 3 0) &&& lanes ≠ 0 →
      let left := BitVec.ofNat 4 (rf s .fab (rFabLinkstatl l) 3 0) &&& ~~~lanes
      Leads (.laneFail l lanes) s fun y => linkState y l = 5 ∧ y.link l = { k with lanesWanted := left } ∧
        y.sent = .width l (laneWidth (laneSet left)) :: s.sent ∧ y = { s with regs := y.regs, links := y.links, sent := y.sent }) ∧
    (∀ w : Nat, linkState s l = 5 →
      let m := adoptLanes k.lanesWanted w
      (laneMin s l ≤ laneWidth m → m ≠ 0 → Leads (.linkRealigned l w) s fun y =>
        linkState y l = 4 ∧ rf y .fab (rFabLinkstatl l) 43 41 = laneWidth m ∧ rf y .fab (rFabLinkstatl l) 3 0 = m.toNat ∧
        (idle → y.link l = k) ∧ SameMemory s y) ∧
      (laneWidth m < laneMin s l ∨ m = 0 → Leads (.linkRealigned l w) s fun y => linkState y l = 6 ∧ emptied y)) ∧
    (∀ e : EchoData, linkState s l = 4 →
      (e.times = none → exec (.echo l e) s =
        .next ((s.send (.echoRequest l)).setLink l { k with missed := k.missed + 1, peerLocked := e.peerLocked })) ∧
      (∀ x, e.times = some x → timeRole s ≠ 2 → Leads (.echo l e) s fun y =>
        let ds := ((x.since - (x.t3 - x.t2)) :: k.echoes).take 16
        (y.link l).echoes = ds ∧ (y.link l).missed = 0 ∧ (y.link l).peerLocked = e.peerLocked ∧
        rf y .fab (rFabLinklatl l) 31 16 = min 0xFFFF (meanCycles ds) ∧ wlock y l = wlock s l ∧ y.time = s.time ∧
        SameMemory s y))

/-- Arrivals (R295, R297, R301 to R303): a transfer for another device goes on, or is dropped and counted; a refused one is
counted and answered with its code; an admitted managed one is written whole and its signal added; a scheduled line or signal
takes effect on its delivery cycle, at once and counted as late where it arrives after it; a failure notice is kept in
FAB_FAILLAST, or goes on. The model's own choices in it: log entries 42 and 98. -/
def Obligations.FabricArrivals : Prop :=
  ∀ (l : Fin 48) (s : State),
    (∀ (x : FabHeader) (data : List Byte), x.dstDev.toNat ≠ devId s →
      let src : Option (Nat × Bool) := if x.managed then some (l.val, x.vc1) else none
      exec (.fabricArrival l x data) s = .next (forward src (.xfer x data) s) ∧
      (wayOut s (.xfer x data) = none → Leads (.fabricArrival l x data) s fun y =>
        rf y .fab rFabDropcnt 31 0 = min (rf s .fab rFabDropcnt 31 0 + 1) (2 ^ 32 - 1) ∧ SameMemory s y) ∧
      (∀ m, egress s false x.dstDev.toNat = .ok m → x.managed = false →
        let k := s.link m
        let c : Chunk := ⟨(Transit.xfer x data).leaving s m, 0, 1 + data.length / 64⟩
        k.sched = [] → k.vc1 = [] → k.vc0 = [] → chunkUnits k.buf + c.units ≤ 2048 →
          exec (.fabricArrival l x data) s = .next ((s.setLink m { k with buf := k.buf ++ [c] }).send (.fabric m c)))) ∧
    (∀ (x : FabHeader) (data : List Byte) (c : Code), x.dstDev.toNat = devId s →
      arrivalBad s (arrivalPart s x) x = some c →
        exec (.fabricArrival l x data) s = .next (sendNotice x c (rsat (freeUnits (if x.managed then some (l.val, x.vc1) else none)
          (1 + data.length / 64) s) .fab rFabDropcnt 63 32 1))) ∧
    (∀ (x : FabHeader) (data : List Byte) (n : Nat), x.dstDev.toNat = devId s →
      arrivalBad s (some x.dpart) x = none → x.len = some n → data.length = 64 * (n + 1) → x.dsp = 0 →
      (x.managed = true ∨ partRunning s x.dpart = false) → Leads (.fabricArrival l x data) s fun y =>
        let m : MemId := .store (tileAt s (bitsOf x.dst 30 22))
        (memOf y m).readBytes (bitsOf x.dst 21 0) data.length = data ∧
        SameMemoryBut m (bitsOf x.dst 21 0) data.length s y ∧
        y.adds = s.adds ++ (match x.signal with
          | some (c, k) => [⟨⟨c / 256, c % 256⟩, k, s.cyc⟩]
          | none => [])) ∧
    (nextDelivery s l = none → exec (.scheduledDelivery l) s = .next s) ∧
    (∀ (c : Nat) (d : Delivery), nextDelivery s l = some (c, d) → d.arrived = true →
      (d.data = [] → Leads (.scheduledDelivery l) s fun y =>
        y.deliveries = s.deliveries.erase d ∧ y.cyc = max s.cyc c ∧ SameMemory s y ∧
        y.adds = s.adds ++ (match d.hdr.signal with
          | some (c, k) => [⟨⟨c / 256, c % 256⟩, k, y.cyc⟩]
          | none => [])) ∧
      (d.data ≠ [] → d.hdr.dsp = 0 → Leads (.scheduledDelivery l) s fun y =>
        let m : MemId := .store (tileAt s (bitsOf d.hdr.dst 30 22))
        y.deliveries = s.deliveries.erase d ∧ y.cyc = max s.cyc c ∧
        (memOf y m).readBytes (bitsOf d.hdr.dst 21 0) d.data.length = d.data ∧
        SameMemoryBut m (bitsOf d.hdr.dst 21 0) d.data.length s y)) ∧
    (∀ (e : Nat) (d : Delivery), s.deliveries = [d] → d.link = l → d.arrived = false → d.data ≠ [] → d.hdr.dsp = 0 →
      partRunning s d.part = true → d.dueAt s = some e → Leads (.scheduledDelivery l) s fun y =>
        let m : MemId := .store (tileAt s (bitsOf d.hdr.dst 30 22))
        y.deliveries = [] ∧ y.cyc = max s.cyc (max d.arrive e) ∧
        (memOf y m).readBytes (bitsOf d.hdr.dst 21 0) d.data.length = d.data ∧
        SameMemoryBut m (bitsOf d.hdr.dst 21 0) d.data.length s y ∧
        rf y .fab (rFabLinkschl l) 63 32 =
          (if e < d.arrive then min (rf s .fab (rFabLinkschl l) 63 32 + 1) (2 ^ 32 - 1) else rf s .fab (rFabLinkschl l) 63 32)) ∧
    (∀ n : Notice, n.dst.toNat = devId s → Leads (.failureNotice ⟨l, n⟩) s fun y =>
      (rg y .fab rFabFaillast).bit 16 = true ∧ rf y .fab rFabFaillast 15 0 = n.code.toNat ∧
      rf y .fab rFabFaillast 63 50 = n.dev.toNat ∧ rf y .fab rFabFaillast 49 45 = n.part.val ∧
      rf y .fab rFabFaillast 44 35 = n.lidx % 1024 ∧ rf y .fab rFabFaillast 34 31 = n.unit % 16 ∧ SameMemory s y) ∧
    (∀ n : Notice, n.dst.toNat ≠ devId s →
      exec (.failureNotice ⟨l, n⟩) s = .next (forward (some (l.val, n.vc1)) (.notice n) s))

/-! Device time. -/

/-- Device time (R304 to R310): setting it, its origin, its pulses, its reference and the loss of it. -/
def DeviceTime : Prop :=
  ∀ (a : Acc) (v : Word) (s t : State),
    (taken (.timeSet a v) s = some t → noStep s = false →
      (timeRole s = 0 → exec (.timeSet a v) s = .next { t with time := { s.time with t := (valueOf a v).toNat * 196608 } }) ∧
      (timeRole s = 1 → timeSrc s = 1 → (valueOf a v).toNat % 1000000000 = 0 →
        exec (.timeSet a v) s = .next { t with time := { s.time with pendingSet := some (valueOf a v) } })) ∧
    (taken (.timeE0 a v) s = some t → timeRole s = 1 → anyRunning s = false →
      exec (.timeE0 a v) s = .next { t with time := { s.time with newE0 := some (rg t .time rTimeE0) } }) ∧
    (∀ port : Bool, Leads (.timeNowRead port) s fun y =>
      y.sent = .regReply port (BitVec.ofNat 64 (s.time.t / 196608 % 2 ^ 64)) :: s.sent ∧
      rg y .time rTimeNowfrac = BitVec.ofNat 64 (s.time.t / 3 % 65536) ∧ y = { s with regs := y.regs, sent := y.sent }) ∧
    (Leads .ppsInEdge s fun y => rg y .time rTimePpsin = BitVec.ofNat 64 s.nowNs ∧
      rg y .time rTimePpsinfrac = BitVec.ofNat 64 (2 ^ 16 + s.nowFrac / 4096 * 4096) ∧ SameMemory s y ∧
      ((timeRole s ≠ 1 ∨ timeSrc s ≠ 1) → y.time = s.time) ∧
      (∀ ns, timeRole s = 1 → timeSrc s = 1 → s.time.pendingSet = some ns → y.time =
        { s.time with t := ns.toNat * 196608, pendingSet := none, lastPps := some (ns.toNat * 196608) })) ∧
    ((rg s .time rTimePpsctrl).bit 0 = true → Leads .ppsOutEdge s fun y =>
      let edge : Int := if s.therm.ppsOut then lastPulse s + 1000000 * (rf s .time rTimePpsctrl 11 2 : Nat)
        else lastPulse s + 1000000000
      y = { s.upTo (cycleOfTime s (edge.toNat * 196608)) with therm := { s.therm with ppsOut := !s.therm.ppsOut } }) ∧
    (referenceLost s = false → exec .timeHoldover s = .next s) ∧
    (referenceLost s = true → timeRole s ≠ 2 → timeState s ≠ 3 → Leads .timeHoldover s fun y =>
      timeState y = 3 ∧ y.time = { s.time with good := 0 } ∧ SameMemory s y ∧
      (s.glow.pend.has srcTime = false → SMap.get ⟨0, 0, 0⟩ y.glow.pend srcTime = ⟨srcTime, .timeHoldover, 0⟩)) ∧
    (referenceLost s = true → timeRole s = 2 → s.time.onUplink2 = false → (rg s .time rTimeCtrl).bit 15 = true →
      linkIsUp s (rf s .time rTimeCtrl 21 16) = true → (s.link (rf s .time rTimeCtrl 21 16)).peerLocked = true →
        Leads .timeHoldover s fun y => timeState y = 1 ∧ y.time = { s.time with onUplink2 := true, good := 0 }) ∧
    (timeRole s = 1 → timeSrc s = 0 → exec (.ptmRequest none) s =
      .next { s.send (.ptm (stewardPort s)) with time := { s.time with missedRef := s.time.missedRef + 1 } }) ∧
    (∀ r : PtmReply, timeRole s = 1 → timeSrc s = 0 → portUp s (stewardPort s) = true → resetting s .device = false →
      let d := r.master + 16 * (rg s .time rTimePtmofs).toInt - (s.time.t / 12288 : Nat)
      Leads (.ptmRequest (some r)) s fun y =>
        y.time.missedRef = 0 ∧ rf y .time rTimeStat 15 12 = 0 ∧ SameMemory s y ∧
        y.time.good = (if d.natAbs ≤ 160 then s.time.good + 1 else 0) ∧
        timeState y = (if 16 ≤ y.time.good then 2 else 1) ∧
        (16000 < d.natAbs → noStep s = false →
          y.time.t = (((s.time.t : Int) + 12288 * d) % (196608 * 2 ^ 64)).toNat))

/-- Epoch marks and device time. The model's own choices in it: log entries 40, 41 and 63. -/
def Obligations.EpochsAndTime : Prop := EpochMarks ∧ DeviceTime

/-! Host attachment. -/

/-- Host attachment (R174, R311, R312, R322, R323, R328, R331): HVC_ADD adds to a counter and is turned away where the
job ring has no room; a completion goes to the host ring in order; heartbeats, lapse, claim and fence; what the PCIe
resets clear, and what link-up releases. The model's own choices in it: log entries 43, 45 and 73. -/
def Obligations.HostAttachment : Prop :=
  ∀ (a : Acc) (v : Word) (port : Bool) (s t : State),
    (∀ g i : Fin 64, taken (.hvcAdd a g i v) s = some t →
      let n := (valueOf a v).toNat
      ((∀ p, partOfGroup s g = some p → subFull s p (g * 64 + i) n = false) → addAbsorbed s (.group g i) = false →
        Leads (.hvcAdd a g i v) s fun y =>
          holderValue y (.group g i) = min (holderValue s (.group g i) + n) (2 ^ 64 - 1) ∧
          holderSat y (.group g i) = (holderSat s (.group g i) || decide (2 ^ 64 ≤ holderValue s (.group g i) + n)) ∧
          ∀ c k, holderOf s c = some k → c ≠ ⟨0x400 + g.val, i.val⟩ → holderValue y k = holderValue s k) ∧
      (∀ p, partOfGroup s g = some p → subFull s p (g * 64 + i) n = true →
        exec (.hvcAdd a g i v) s = .next (rejectWrite a (.hvc g) .queueFull s))) ∧
    (∀ (p : Fin 32) (q : Fin 16) (r : List Byte) (rest : List (List Byte)),
      let h := (s.part p).hqOf q
      let n := 2 ^ (queueCfg s p q).field 55 52
      let room := h.c - hvValue s (queueCounter s p q .cons)
      h.waiting = r :: rest →
        (room < n → portUp s (partPort s p) = true → Leads (.completionWrite p q) s fun y =>
          (y.part p).hqOf q = { h with c := h.c + 1, waiting := rest } ∧
          y.hostMem (partPort s p) = (s.hostMem (partPort s p)).writeBytes
            ((rgEff s (.part p) (rPartQcplq q)).field 45 5 * 32 + 32 * (h.c % n)) r ∧
          y.hostMem (!partPort s p) = s.hostMem (!partPort s p) ∧ (∀ i, memOf y i = memOf s i)) ∧
        (n ≤ room ∨ portUp s (partPort s p) = false → exec (.completionWrite p q) s = .next s)) ∧
    (taken (.hbeat a v) s = some t → a.half ≠ .high → Leads (.hbeat a v) s fun y =>
      y.steward = { s.steward with
        lapsed := false, lastBeat := s.cyc, claim := if fencing s then 2 else s.steward.claim } ∧
      rf y (.hif a.port) rHifHbeat 31 0 = (rf s (.hif a.port) rHifHbeat 31 0 + 1) % 2 ^ 32 ∧
      (fencing s = false → y.glow = s.glow) ∧ SameMemory s y) ∧
    (s.steward.lapsed = false → Leads .stewardLapsed s fun y =>
      y.steward = { s.steward with lapsed := true } ∧
      y.cyc = max s.cyc (s.steward.lastBeat + rf s (.hif (stewardPort s)) rHifStewcfg 15 0 * 1500000) ∧
      Reported (srcPort (stewardPort s)) .stewardLapsed 0 s y ∧ SameMemory s y) ∧
    (taken (.claim a v) s = some t →
      (s.steward.lapsed = true → a.port ≠ stewardPort s → fencing s = false → exec (.claim a v) s =
        .next { t with steward := { s.steward with claim := 1, fenceFrom := s.cyc } }) ∧
      (s.steward.lapsed = false ∨ a.port = stewardPort s →
        exec (.claim a v) s = .next (rejectWrite a (.hif a.port) .wrongState s))) ∧
    (fencing s = true → Leads .fenceEnd s fun y =>
      y.steward = { s.steward with port := !s.steward.port, claim := 3, lastBeat := y.cyc } ∧
      y.cyc = max s.cyc (s.steward.fenceFrom + rf s (.hif (stewardPort s)) rHifStewcfg 47 32 * 1500000) ∧
      (rg y .ras rLogDma).bit 63 = false ∧ SameMemory s y) ∧
    (∀ n : Fin 33, Leads (.pcieReset port (.flrVf n)) s fun y =>
      (∀ x, x ∈ (y.portOf port).masked ↔ x ∈ (s.portOf port).masked ∧ x / 32 ≠ n.val) ∧
      (∀ x, x ∈ (y.portOf port).msixPending ↔ x ∈ (s.portOf port).msixPending ∧ x / 32 ≠ n.val) ∧
      y = s.setPort port { s.portOf port with masked := (y.portOf port).masked, msixPending := (y.portOf port).msixPending }) ∧
    (∀ k : PcieReset, (∀ n, k ≠ .flrVf n) → Leads (.pcieReset port k) s fun y =>
      y.portOf port = (if k = .flrPf0 then { up := (s.portOf port).up } else {}) ∧ y.portOf (!port) = s.portOf (!port) ∧
      (∀ o, o < 0x80000 → rg y (.hif port) o = regReset (.hif port) o) ∧
      (∀ b o, (b.base + o < (Blk.hif port).base ∨ (Blk.hif port).base + 0x80000 ≤ b.base + o) → rg y b o = rg s b o) ∧
      y = { s with regs := y.regs, port0 := y.port0, port1 := y.port1 }) ∧
    (s.bup.vglow = true → Leads (.pcieLinkUp port) s fun y =>
      (y.portOf port).up = true ∧ (y.portOf port).vfs = 32 ∧ y.portOf (!port) = s.portOf (!port) ∧
      (∀ x, x ∈ (y.portOf port).msixPending → x ∈ (s.portOf port).masked) ∧ (∀ i, memOf y i = memOf s i)) ∧
    (s.bup.vglow = false → exec (.pcieLinkUp port) s = .next s)

/-- Accesses through BAR2 windows and at raw BAR0 offsets (R9, R12, R316, R317, R319, R320, R473, R474): a read of mapped
bytes returns them, one through a VF that serves no partition zeros (a write through it is rejected with NOT_OWNER), one
that touches an unmapped byte completes with Unsupported Request, one that meets an uncorrectable codeword returns no data;
a write changes exactly the bytes that it maps to, and one that maps to none is counted; a register write at a raw offset is
the write of the register that lies there, refused by width, alignment and place, in that order, and ignored in the cairn's
window. -/
def HostAccesses : Prop :=
  ∀ (port : Bool) (s : State),
    (∀ (vf : Fin 33) (off k x : Nat) (data : List Byte) (len : Nat), s.bup.handed = [] → unservedVf s port vf = false →
      let rd := Instr.hostBarAccess ⟨port, vf, off, .read len⟩
      let wr := Instr.hostBarAccess ⟨port, vf, off, .write data⟩
      ((∃ i, i < len ∧ barPlace s port vf (off + i) = none) → exec rd s = .next (s.send (.unsupported port))) ∧
      ((∀ i, i < len → barPlace s port vf (off + i) = some (k, x + i)) →
        (CleanBytes s k x len → Leads rd s fun y =>
          y.sent = .readReply port (some (s.mem.readBytes x len)) :: s.sent ∧ SameMemory s y) ∧
        ((∃ j, j < len ∧ byteCheck s k (x + j) = .bad) → Leads rd s fun y =>
          (∃ r, y.sent = .readReply port none :: r) ∧ SameMemory s y)) ∧
      ((∀ i, i < data.length → barPlace s port vf (off + i) = some (k, x + i)) → Leads wr s fun y =>
        y.mem.readBytes x data.length = data ∧ SameMemoryBut (.stack k) x data.length s y) ∧
      (data ≠ [] → (∀ i, i < data.length → barPlace s port vf (off + i) = none) →
        exec wr s = .next (rsat s (.hif port) rHifErrcnt 31 0 1))) ∧
    (∀ (vf : Fin 33) (off : Nat) (data : List Byte) (len : Nat), unservedVf s port vf = true →
      exec (.hostBarAccess ⟨port, vf, off, .read len⟩) s = .next (s.send (.readReply port (some (List.replicate len 0)))) ∧
      exec (.hostBarAccess ⟨port, vf, off, .write data⟩) s =
        .next (rejectWrite ⟨port, vf, .full⟩ (.part (vf.val - 1)) .notOwner s)) ∧
    (∀ v : Word, v.field 63 10 = 0 → Leads (.registerWrite ⟨port, 0, 0x30, 64⟩ v) s fun y =>
      rf y (.hif port) rHifVecen 9 0 = v.field 9 0 ∧ (∀ b o, b.base + o ≠ (Blk.hif port).base + rHifVecen → rg y b o = rg s b o) ∧
      y = { s with regs := y.regs }) ∧
    (∀ v : Word,
      exec (.registerWrite ⟨port, 0, 0x20, 64⟩ v) s = exec (.hbeat ⟨port, 0, .full⟩ v) s ∧
      (v.bit 7 = true → exec (.registerWrite ⟨port, 0, 0x10, 64⟩ v) s = exec (.claim ⟨port, 0, .full⟩ v) s) ∧
      (v.bit 63 = true → exec (.registerWrite ⟨port, 0, 0x40, 64⟩ v) s = exec (.deviceCommit ⟨port, 0, .full⟩ v) s)) ∧
    (∀ (off bits : Nat) (v : Word), 0x700000 ≤ off → off < 0x800000 →
      exec (.registerWrite ⟨port, 0, off, bits⟩ v) s = .next s) ∧
    (∀ (off bits : Nat) (v : Word) (b : Blk) (o : Nat), pf0Place port off = some (b, o) → b ≠ .crn →
      (∀ q, b ≠ .hif q) →
      (¬ ((bits = 32 ∧ off % 4 = 0) ∨ (bits = 64 ∧ off % 8 = 0)) → exec (.registerWrite ⟨port, 0, off, bits⟩ v) s =
        .next (rejectWrite ⟨port, 0, halfAt bits off⟩ b .illegalValue s)) ∧
      (((bits = 32 ∧ off % 4 = 0) ∨ (bits = 64 ∧ off % 8 = 0)) → regDesc b (o / 8 * 8) = none → inFwWindow b o = false →
        exec (.registerWrite ⟨port, 0, off, bits⟩ v) s =
          .next (rejectWrite ⟨port, 0, halfAt bits off⟩ b .outOfRange s)))

/-- What a host's register writes and its memory accesses do. The model's own choices in it: log entries 14, 15 and
16. -/
def Obligations.HostTraffic : Prop := HostWritesChecked ∧ HostAccesses

/-! Staged configuration. -/

/-- The staged fields of the registers of a list are back at their values in effect, their other fields as they were. -/
def Discarded (l : List (Blk × Nat)) (s y : State) : Prop :=
  ∀ r ∈ l, ∀ d, regDesc r.1 r.2 = some d →
    rg y r.1 r.2 = (rg s r.1 r.2 &&& ~~~stagedBits d) ||| (rgEff s r.1 r.2 &&& stagedBits d)

/-- The staged values of the registers of a list are in effect, and no other register's value in effect has changed. -/
def Applied (l : List (Blk × Nat)) (s y : State) : Prop :=
  (∀ r ∈ l, rgEff y r.1 r.2 = rg s r.1 r.2) ∧
    ∀ b o, (∀ r ∈ l, r.1.base + r.2 ≠ b.base + o) → rgEff y b o = rgEff s b o

/-- A byte of granule `g` of stack `k`. -/
def inGranule (k g x : Nat) : Prop := stackBase k + g * 0x4000000 ≤ x ∧ x < stackBase k + (g + 1) * 0x4000000

/-- Commits of staged configuration (R13, R212, R225, R324 to R327, R352): a commit that fails a check changes nothing in
effect and shows the code; one that passes puts every staged value in effect, the stores of clusters that change hands are
filled, no byte of a stack range that changes hands stays visible, and the regulators' buckets are full; commits run one at
a time in the order they come; DISCARD puts the staged values back. The model's own choices in it: log entry 44. -/
def Obligations.Commits : Prop :=
  ∀ (a : Acc) (p : Fin 32) (v : Word) (s t : State),
    (let r := Blk.hif a.port
     let key := if a.port then 1 else 0
     let s1 := rput { t with bup := { t.bup with commitBusy := t.bup.commitBusy ++ [key] } } r rHifPcommit 61 61 1
     taken (.deviceCommit a v) s = some t → (valueOf a v).bit 62 = false → (rg s r rHifPcommit).bit 61 = false →
      bupPast s 11 = true →
      (s.bup.commitBusy ≠ [] → exec (.deviceCommit a v) s = .next s1) ∧
      (s.bup.commitBusy = [] →
        (∀ c n, deviceCheck s1 = some (c, n) → Leads (.deviceCommit a v) s fun y =>
          rf y r rHifPcommit 57 56 = 2 ∧ rf y r rHifPcommit 15 0 = c.toNat ∧ rf y r rHifPcommit 52 48 = n % 32 ∧
          (rg y r rHifPcommit).bit 61 = true ∧ y = { s1 with regs := y.regs }) ∧
        (deviceCheck s1 = none → Leads (.deviceCommit a v) s fun y =>
          rf y r rHifPcommit 57 56 = 1 ∧ rf y r rHifPcommit 15 0 = 0 ∧ (rg y r rHifPcommit).bit 61 = true ∧
          ((∀ g : Fin 4, stackFailed s (4 + g) = false) → Applied deviceRegs s y) ∧
          (∀ q c, q < 32 → c < 32 → validNew s q = true → (compNew s q).bit c = true →
            lastHolder s (heldCluster c) ≠ some q → FillTarget.cluster (Fin.ofNat 32 c) ∈ y.bup.fills) ∧
          (∀ k, k < 8 → (y.stack k).regs = []) ∧
          (∀ m x, ((∃ h, m = .slice h) ∨ ∃ h, m = .store h) → (memOf y m).read x = (memOf s m).read x) ∧
          (∀ x, y.mem.read x = s.mem.read x ∨ y.mem.read x = 0 ∧ ∃ k g, (k, g) ∈ y.bup.handed ∧ inGranule k g x) ∧
          (∀ k e g, k < 8 → e ∈ newRanges s1 k → g ∈ granules e.2 →
            lastHolder s (heldGranule k g) ≠ some (entryPart e.2) →
              (k, g) ∈ y.bup.handed ∧ ∀ x, inGranule k g x → y.mem.read x = 0)))) ∧
    (∀ key rest, s.bup.commitBusy = key :: rest →
      let s0 := { s with bup := { s.bup with commitBusy := rest } }
      (key < 2 → let s2 := rput s0 (.hif (key == 1)) rHifPcommit 61 61 0
        (rest = [] → exec .deviceCommitDone s = .next s2) ∧
        (∀ n more, rest = n :: more → exec .deviceCommitDone s = .next (runCommit n s2))) ∧
      (key = 2 + p.val → let s2 := rput s0 (.part p) rPartCommit 61 61 0
        (rest = [] → exec (.partCommitDone p) s = .next s2) ∧
        (∀ n more, rest = n :: more → exec (.partCommitDone p) s = .next (runCommit n s2)))) ∧
    (taken (.pcommitDiscard a v) s = some t → (valueOf a v).bit 63 = false → (rg s (.hif a.port) rHifPcommit).bit 61 = false →
      Leads (.pcommitDiscard a v) s fun y => Discarded deviceRegs s y ∧ y = { s with regs := y.regs }) ∧
    (let s1 := rput { t with bup := { t.bup with commitBusy := t.bup.commitBusy ++ [2 + p.val] } } (.part p) rPartCommit 61 61 1
     taken (.partCommit a p v) s = some t → (valueOf a v).bit 62 = false → (rg s (.part p) rPartCommit).bit 61 = false →
      partValid s p = true →
      (s.bup.commitBusy ≠ [] → exec (.partCommit a p v) s = .next s1) ∧
      (s.bup.commitBusy = [] →
        (∀ c, partCheck s1 p = some c → Leads (.partCommit a p v) s fun y =>
          rf y (.part p) rPartCommit 57 56 = 2 ∧ rf y (.part p) rPartCommit 15 0 = c.toNat ∧ y = { s1 with regs := y.regs }) ∧
        (partCheck s1 p = none → Leads (.partCommit a p v) s fun y =>
          rf y (.part p) rPartCommit 57 56 = 1 ∧ rf y (.part p) rPartCommit 15 0 = 0 ∧ Applied (partRegs p) s y ∧
          y = { s1 with regs := y.regs, eff := y.eff }))) ∧
    (taken (.partDiscard a p v) s = some t → (valueOf a v).bit 63 = false → (rg s (.part p) rPartCommit).bit 61 = false →
      partValid s p = true → Leads (.partDiscard a p v) s fun y =>
        Discarded (partRegs p) s y ∧ y = { s with regs := y.regs }) ∧
    (taken (.gstCommit a v) s = some t → (valueOf a v).bit 62 = false →
      (∀ c, guestCheck t = some c → Leads (.gstCommit a v) s fun y =>
        rf y .gst rGstCommit 57 56 = 2 ∧ rf y .gst rGstCommit 15 0 = c.toNat ∧ y = { s with regs := y.regs }) ∧
      (guestCheck t = none → Leads (.gstCommit a v) s fun y =>
        rf y .gst rGstCommit 57 56 = 1 ∧ rf y .gst rGstCommit 15 0 = 0 ∧ Applied guestRegs s y ∧
        y = { s with regs := y.regs, eff := y.eff })) ∧
    (taken (.gstDiscard a v) s = some t → (valueOf a v).bit 63 = false →
      Leads (.gstDiscard a v) s fun y => Discarded guestRegs s y ∧ y = { s with regs := y.regs })

/-! The ridge. -/

/-- Ridge modules (R337 to R341): a bad lane takes an UP module out of traffic at once; retraining renews what each
side finds; handshakes agree on a width code, at the narrower one after a mismatch; a one-sided reset holds the module
until the side's receiver has been retested. The model's own choices in it: log entry 46. -/
def Obligations.RidgeModules : Prop :=
  ∀ (a : Acc) (m : Fin 128) (v : Word) (s t : State),
    let r := s.ridgeMod m
    let stat := rD2dModstatm m
    (∀ b : RidgeBad, modState s m = modUP → Leads (.ridgeLaneBad m b) s fun y =>
      modState y m = modHELD ∧ rf y .d2d stat 47 40 = min (rf s .d2d stat 47 40 + 1) 255 ∧
      rf y .d2d stat 63 48 = (if b.uncorrectable then rf s .d2d stat 63 48 else min (rf s .d2d stat 63 48 + 17) 65535) ∧
      (y.ridgeMod m).badPS = (if b.toSaddle then b.lane.val :: r.badPS else r.badPS) ∧
      (y.ridgeMod m).badSP = (if b.toSaddle then r.badSP else b.lane.val :: r.badSP) ∧
      rf y .d2d stat 39 33 = goodLanes (y.ridgeMod m).badPS ∧ rf y .d2d stat 31 25 = goodLanes (y.ridgeMod m).badSP ∧
      (∀ n, n ≠ m.val → y.ridgeMod n = s.ridgeMod n) ∧ SameMemory s y) ∧
    (∀ b : RidgeBad, modState s m ≠ modUP → exec (.ridgeLaneBad m b) s = .next s) ∧
    (modState s m = modHELD → r.retest = [] → widthCode (min (goodLanes r.badPS) (goodLanes r.badSP)) ≠ 0 →
      Leads (.ridgeRetrained m) s fun y =>
        y.ridgeMod m = { r with retrained := true } ∧ wpk y m = min (widthCode (goodLanes r.badSP)) (wsd s m) ∧
        wsd y m = min (widthCode (goodLanes r.badPS)) (wpk s m) ∧ modState y m = modHELD ∧ SameMemory s y) ∧
    (modState s m = modHELD → r.retest = [] → wpk s m = wsd s m →
      exec (.ridgeHandshake m) s = .next (s.setRidge m { r with agreed := true, mismatch := false })) ∧
    (modState s m = modHELD → r.retest = [] → wpk s m ≠ wsd s m → r.mismatch = false → Leads (.ridgeHandshake m) s fun y =>
      y.ridgeMod m = { r with mismatch := true } ∧ Reported (srcRidge m) .ridgeWidthMismatch 0 s y ∧
      wpk y m = wpk s m ∧ wsd y m = wsd s m ∧ SameMemory s y) ∧
    (modState s m = modHELD → r.retest = [] → wpk s m ≠ wsd s m → r.mismatch = true → Leads (.ridgeHandshake m) s fun y =>
      wpk y m = min (wpk s m) (wsd s m) ∧ wsd y m = min (wpk s m) (wsd s m) ∧
      y.ridgeMod m = { r with agreed := true, mismatch := false, retrained := false } ∧ SameMemory s y) ∧
    (taken (.rstside a m v) s = some t →
      ((valueOf a v).field 1 0 = 0 → exec (.rstside a m v) s = .next t) ∧
      ((valueOf a v).field 1 0 ≠ 0 → modState s m = modDOWN →
        exec (.rstside a m v) s = .next (rejectWrite a .d2d .wrongState s)) ∧
      ((valueOf a v).field 1 0 ≠ 0 → modState s m ≠ modDOWN → Leads (.rstside a m v) s fun y =>
        modState y m = modHELD ∧
        (∀ side, side ∈ (y.ridgeMod m).retest ↔ side ∈ r.retest ∨ (valueOf a v).bit (if side then 0 else 1) = true) ∧
        y.ridgeMod m = { r with retest := (y.ridgeMod m).retest, retrained := false, agreed := false, mismatch := false } ∧
        SameMemory s y)) ∧
    (∀ (side : Bool) (bad : List Nat), r.retest.contains side = true →
      let lanes := fusedLanes m side ++ bad
      let w := widthCode (goodLanes lanes)
      Leads (.ridgeRetestDone m side bad) s fun y =>
        (y.ridgeMod m).retest = r.retest.filter (· != side) ∧
        (side = true → (y.ridgeMod m).badSP = lanes ∧ (y.ridgeMod m).badPS = r.badPS ∧ wpk y m = min w (wsd s m) ∧
          wsd y m = wsd s m) ∧
        (side = false → (y.ridgeMod m).badPS = lanes ∧ (y.ridgeMod m).badSP = r.badSP ∧ wsd y m = min w (wpk s m) ∧
          wpk y m = wpk s m) ∧ modState y m = modState s m ∧ SameMemory s y)

/-! The guest port. -/

/-- The guest port (R343 to R352): with the link up, an admitted read returns the bytes, an admitted write stores
them, an admitted CADD adds and an admitted CRD answers value and flag, each after its charge; everything else is
refused with NOT_OWNER, counted, and touches nothing; the link comes up as trained and goes down with its report;
GST_CTRL resets, trains and stops it. Every clause holds for both variants: a DH7-512A has no guest and answers
nothing. The model's own choices in it: log entry 47. -/
def Obligations.GuestPort : Prop :=
  ∀ (s t : State),
    let refused (c : Instr) : Prop := Leads c s fun y => if Config.variantG then
        y.sent.head? = some (.guestReply .notOwner []) ∧
        rf y .gst rGstDeny 47 0 = min (rf s .gst rGstDeny 47 0 + 1) (2 ^ 48 - 1) ∧ SameMemory s y ∧ y.cyc = s.cyc
      else y = s
    let up : Prop := rf s .gst rGstCtrl 10 8 = 2 ∧ (rg s .gst rGstCtrl).bit 1 = false
    let charge (n : Nat) : Nat := s.guest.missing - rfEff s .gst rGstPolicy 8 0 * (s.cyc - s.guest.at_) + 3 * n
    let room (n : Nat) : Prop := charge n ≤ rfEff s .gst rGstPolicy 23 16 * 12288
    (up →
      (∀ addr len, guestAdmits s 61 addr len = none → refused (.guestRd addr len)) ∧
      (∀ addr data, guestAdmits s 62 addr data.length = none → refused (.guestWr addr data)) ∧
      (∀ r, refused (.guestOtherMessage r)) ∧
      (∀ (addr len p : Nat), guestAdmits s 61 addr len = some p → room len → s.bup.handed = [] →
        (∀ x ∈ pieces addr len, ∀ k z, placeOf x.1 = .stack k z → CleanBytes s k z x.2) →
        Leads (.guestRd addr len) s fun y => if Config.variantG then
            y.sent = .guestReply .ok ((pieces addr len).flatMap fun x =>
              match placeOf x.1 with
              | .stack _ z => s.mem.readBytes z x.2
              | _ => []) :: s.sent ∧
            y.guest.missing = charge len ∧ SameMemory s y
          else y = s) ∧
      (∀ (addr p : Nat) (data : List Byte), guestAdmits s 62 addr data.length = some p → room data.length →
        s.bup.handed = [] →
        Leads (.guestWr addr data) s fun y => if Config.variantG then
            y.mem = (pieces addr data.length).foldl (fun m x =>
              match placeOf x.1 with
              | .stack _ z => m.writeBytes z ((data.drop (x.1 - addr)).take x.2)
              | _ => m) s.mem ∧
            y.sent = .guestReply .ok [] :: s.sent ∧ y.guest.missing = charge data.length
          else y = s) ∧
      (∀ (c : BitVec 20) (n : W32) (k : Holder), holderOf s ⟨c.toNat / 256, c.toNat % 256⟩ = some k →
        guestCounter s 62 c.toNat = true → n ≠ 0 → room 64 → addAbsorbed s k = false →
        countersMoving s ⟨c.toNat / 256, c.toNat % 256⟩ = false → Leads (.guestCadd c n) s fun y => if Config.variantG then
            holderValue y k = min (holderValue s k + n.toNat) (2 ^ 64 - 1) ∧ y.sent.head? = some (.guestReply .ok [])
          else y = s) ∧
      (∀ (c : BitVec 20) (n : W32), guestCounter s 62 c.toNat = false ∨ n = 0 → refused (.guestCadd c n)) ∧
      (∀ (c : BitVec 20) (k : Holder), holderOf s ⟨c.toNat / 256, c.toNat % 256⟩ = some k →
        guestCounter s 61 c.toNat = true → room 64 → Leads (.guestCrd c) s fun y => if Config.variantG then
            y.sent = .guestReply .ok (bytesOf 8 (holderValue s k) ++ [if holderSat s k then 1 else 0]) :: s.sent ∧
            SameMemory s y
          else y = s) ∧
      (∀ (c : BitVec 20), guestCounter s 61 c.toNat = false → refused (.guestCrd c))) ∧
    (∀ speed width, (rg s .gst rGstCtrl).bit 0 = true → (rg s .gst rGstCtrl).bit 1 = false → 1 ≤ speed → speed ≤ 6 →
      1 ≤ width → width ≤ 3 → Leads (.guestLinkActive speed width) s fun y => if Config.variantG then
        rf y .gst rGstCtrl 10 8 = 2 ∧ rf y .gst rGstCtrl 12 11 = width ∧ rf y .gst rGstCtrl 15 13 = speed ∧
        y = { s with regs := y.regs }
      else y = s) ∧
    (rf s .gst rGstCtrl 10 8 = 2 → Leads .guestLinkDown s fun y =>
      rf y .gst rGstCtrl 10 8 = 3 ∧ rf y .gst rGstCtrl 15 11 = 0 ∧ Reported srcUcie .guestLinkDown 0 s y ∧ SameMemory s y) ∧
    (rf s .gst rGstCtrl 10 8 ≠ 2 → exec .guestLinkDown s = .next s) ∧
    (∀ (a : Acc) (v : Word),
      let old := rg s .gst rGstCtrl
      let new := rg t .gst rGstCtrl
      taken (.greset a v) s = some t → (valueOf a v).bit 0 = false → new.field 51 40 = old.field 51 40 →
      s.therm.guestHot = false →
      (new.bit 1 = true → old.bit 1 = false → Leads (.greset a v) s fun y =>
        rf y .gst rGstCtrl 10 8 = 0 ∧ rf y .gst rGstCtrl 15 11 = 0 ∧ (rg y .gst rGstCtrl).bit 1 = true ∧
        Reported srcUcie .guestLinkDown 0 s y ∧ SameMemory s y) ∧
      ((new.bit 1 = false ∨ old.bit 1 = true) → new.bit 0 = false → old.bit 0 = true → old.field 10 8 ≠ 2 →
        exec (.greset a v) s = .next (rput t .gst rGstCtrl 10 8 3)) ∧
      ((new.bit 1 = false ∨ old.bit 1 = true) → new.bit 0 = false → old.bit 0 = true → old.field 10 8 = 2 →
        Leads (.greset a v) s fun y => rf y .gst rGstCtrl 10 8 = 3 ∧ Reported srcUcie .guestLinkDown 0 s y ∧ SameMemory s y) ∧
      ((new.bit 1 = false ∨ old.bit 1 = true) → new.bit 0 = false → old.bit 0 = false → exec (.greset a v) s = .next t) ∧
      (new.bit 0 = old.bit 0 → new.bit 1 = old.bit 1 → exec (.greset a v) s = .next t)) ∧
    (∀ (a : Acc) (v : Word), commonChecks a dGstCtrl .steward v s = none → fencing s = false → (valueOf a v).bit 0 = true →
      (valueOf a v).bit 1 = false → a.half ≠ .high →
      (rg s .gst rGstCtrl).bit 0 = false ∨ (rg s .gst rGstCtrl).bit 1 = true → s.therm.guestHot = false →
      (a.half = .full → (valueOf a v).field 51 40 = rf s .gst rGstCtrl 51 40) →
      Leads (.greset a v) s fun y => if Config.variantG then rf y .gst rGstCtrl 10 8 = 1 ∧ (rg y .gst rGstCtrl).bit 0 = true
        else y = rejectWrite a .gst .notOwner s)

/-! Bring-up. -/

/-- Power-up and bring-up (R342, R354 to R369, R404 to R406, R458, R459): the glow domain starts at step 1; rails come
up in order and go down in reverse when one fails, with three more tries; GO and SKIP start and skip the step whose
turn it is; a step's end shows what it found; step 7 leaves zeros, step 9 the map that the tiles' classes give; SAVE
writes a record of what was retired; without VGLOW nothing is left but the cairn, burnt fuses and the hosts' memories.
The model's own choices in it: log entries 51 and 52. -/
def Obligations.BringUp : Prop :=
  ∀ (a : Acc) (v : Word) (s t : State),
    (∀ strap ok : Bool, s.bup.vglow = false → Leads (.vglowUp strap ok) s fun y =>
      y.bup.vglow = true ∧ y.bup.fusesRead = ok ∧ y.steward.port = strap ∧ y.steward.strap = strap ∧
      bupStep y = 1 ∧ bupStatus y = 1 ∧ railState y 6 = 2 ∧ rf y .clk (rPwrRailr 6) 31 20 = 800 ∧
      railState y 5 = (if s.bup.testN then 1 else railState s 5) ∧ (ok = false → Reported srcFuse .fuseFault 0 s y) ∧
      SameMemory s y) ∧
    (s.bup.testN = false → Leads .testNRelease s fun y => y.bup = { s.bup with testN := true } ∧
      (∀ r, s.bup.vglow = true → railOrder[s.bup.railNext]? = some r → railState y r = 1 ∧
        y.sent.head? = some (.pmbus r true)) ∧ (s.bup.vglow = false → y.regs = s.regs ∧ y.sent = s.sent)) ∧
    (∀ r : Fin 8, railOrder[s.bup.railNext]? = some r.val → railState s r = 1 →
      (Leads (.railInRegulation r) s fun y => railState y r = 2 ∧ y.bup = { s.bup with railNext := s.bup.railNext + 1 } ∧
        (∀ n, railOrder[s.bup.railNext + 1]? = some n → railState y n = 1 ∧ y.sent.head? = some (.pmbus n true)) ∧
        (railOrder[s.bup.railNext + 1]? = none → y.sent = s.sent)) ∧
      (Leads (.railSeqFail r) s fun y => railState y r = 4 ∧ y.therm = { s.therm with seqFail := true } ∧
        (∀ i n, i < s.bup.railNext → railOrder[i]? = some n → railState y n = 0) ∧
        y.sent = (railOrder.take (s.bup.railNext + 1)).map (Msg.pmbus · false) ++ s.sent)) ∧
    (s.therm.seqFail = true → s.bup.vglow = true →
      (s.bup.retries < 3 → Leads .railSeqRetry s fun y =>
        y.bup = { s.bup with railNext := 0, retries := s.bup.retries + 1 } ∧ y.cyc = s.cyc + 1500000000 ∧
        y.therm = { s.therm with seqFail := false } ∧ railState y 5 = 1 ∧
        (∀ i n, 0 < i → railOrder[i]? = some n → railState y n = 0)) ∧
      (3 ≤ s.bup.retries → exec .railSeqRetry s = .next s)) ∧
    (let n := rf t .bup rBupCtrl 11 8
     taken (.bupGo a v) s = some t → (valueOf a v).bit 62 = false → 4 ≤ n → n ≤ 11 →
      (bupStatus s ≠ 1 → mayStart s n = true → Leads (.bupGo a v) s fun y =>
        bupStep y = n ∧ bupStatus y = 1 ∧ y.bup.stepFrom = s.cyc ∧ SameMemory s y ∧
        (n = 5 → ∀ m, m < 128 → modState y m = modTRAIN) ∧
        (n = 6 → ∀ k, k < 8 → rf y (.memc k) rMemcState 7 4 = 1) ∧
        (n = 7 → ∀ h, h < 544 → (rg y (.tile h) rTileSlState).bit 0 = true)) ∧
      (bupStatus s = 1 ∨ mayStart s n = false → exec (.bupGo a v) s = .next (rejectWrite a .bup .wrongState s))) ∧
    (let n := rf t .bup rBupCtrl 11 8
     taken (.bupSkip a v) s = some t → (valueOf a v).bit 63 = false →
      ((n = 8 ∨ n = 10 ∨ n = 11) → bupStatus s ≠ 1 → mayStart s n = true → Leads (.bupSkip a v) s fun y =>
        bupStep y = n ∧ bupStatus y = 0 ∧ (rg y .bup rBupState).bit 41 = true ∧ SameMemory s y) ∧
      (n = 11 → bupStep s = 11 → bupStatus s = 1 → Leads (.bupSkip a v) s fun y =>
        bupStep y = 11 ∧ bupStatus y = 2 ∧ (rg y .bup rBupState).bit 41 = true ∧ SameMemory s y) ∧
      (n ≠ 8 → n ≠ 10 → n ≠ 11 → exec (.bupSkip a v) s = .next (rejectWrite a .bup .illegalValue s))) ∧
    (∀ (ms : Nat) (r : BupFindings),
      let n := bupStep s
      let e := (endOf r (s.upTo (s.bup.stepFrom + ms * 1500000))).1
      (bupStatus s = 1 → stepMayEnd s ms = true → Leads (.bupStepDone ms r) s fun y =>
        (n ≠ 8 → y.cyc = max s.cyc (s.bup.stepFrom + ms * 1500000)) ∧
        (e.done = true → n < 3 → bupStep y = n + 1 ∧ bupStatus y = 1 ∧ y.bup.stepFrom = y.cyc) ∧
        (¬ (e.done = true ∧ n < 3) → bupStep y = n ∧ bupStatus y = (if e.done then 2 else 3) ∧
          rf y .bup rBupState 63 48 = e.code.toNat ∧ rf y .bup rBupState 31 0 = ms % 2 ^ 32) ∧
        (n = 3 → (e.done = true ↔ s.bup.fusesRead = true ∧ posOk = true)) ∧
        (n = 5 → (bupStatus y = 2 ↔ 32 ≤ modulesUp y 0 ∧ 32 ≤ modulesUp y 1)) ∧
        (n = 7 → (∀ h, h < 544 → (y.tile h).store = [] ∧ (y.tile h).slice = []) ∧ (∀ k, k < 512 → (y.grotto k).ls = []) ∧
          ∀ k ∈ goodStacks s, ∀ x, stackBase k ≤ x → x < stackBase k + stackSize k → y.mem.read x = 0) ∧
        (n = 9 → ∀ w, w < 32 →
          let bad := (List.range 17).filter fun c => ownClass y (w * 17 + c) == 0
          (bad = [] → (rg y .bup (rBupRowmapr w)).bit 0 = true ∧ holeOf y w = 31 ∧ clusterClass y w ≠ 0) ∧
          (∀ c, bad = [c] → (rg y .bup (rBupRowmapr w)).bit 0 = false ∧ holeOf y w = c ∧ clusterClass y w ≠ 0) ∧
          (2 ≤ bad.length → (rg y .bup (rBupRowmapr w)).bit 32 = true ∧ clusterClass y w = 0))) ∧
      (bupStatus s ≠ 1 ∨ stepMayEnd s ms = false → exec (.bupStepDone ms r) s = .next s)) ∧
    (taken (.saveRecord a v) s = some t →
      (bupPast s 6 = true → portUp s (stewardPort s) = true → Leads (.saveRecord a v) s fun y =>
        rf y .bup rBupTrrecstat 43 42 = 3 ∧
        (∃ r, y.bup.records = r :: s.bup.records ∧ r.tiles = s.bup.retiredInService ∧ r.banks = retiredBanks s) ∧
        (y.hostMem (stewardPort s)).readBytes (rf t .bup rBupTrrec 45 12 * 4096) 4 = bytesOf 4 0x43455254 ∧
        y.hostMem (!stewardPort s) = s.hostMem (!stewardPort s) ∧ ∀ i, memOf y i = memOf s i) ∧
      (bupPast s 6 = true → portUp s (stewardPort s) = false → exec (.saveRecord a v) s = .next t) ∧
      (bupPast s 6 = false → exec (.saveRecord a v) s = .next (rejectWrite a .bup .wrongState s))) ∧
    (Leads .vglowLoss s fun y => y.cairn = s.cairn ∧ y.hostMem0 = s.hostMem0 ∧ y.hostMem1 = s.hostMem1 ∧
      y.sec.keyRevBurnt = s.sec.keyRevBurnt ∧ y.sec.minSvnBurnt = s.sec.minSvnBurnt ∧ y.bup.records = s.bup.records ∧
      y.bup.vglow = false ∧ y.regs = [] ∧ y.eff = [] ∧ y.tiles = [] ∧ y.grt = [] ∧ y.mem = [] ∧ y.guestMem = [] ∧
      y.parts = [] ∧ y.hv = [] ∧ y.adds = [] ∧ y.glow = {} ∧ y.time = {} ∧ y.steward = {} ∧ y.port0 = {} ∧ y.port1 = {})

/-! Repair in service. -/

/-- Row-shift repair (R285, R368, R371 to R376): a mapped tile that is retired starts its row's repair where the row
has a spare, else the row is degraded and carries no logical tiles; tiles move one by one, the refill follows, and the
map switch leaves each of them one column further east with all it held, the lost one refilled, its counters kept
where they could be read. The model's own choices in it: log entry 54. -/
def Obligations.RowRepairs : Prop :=
  ∀ (s : State),
    (∀ (h : Fin 544) (readable : Bool) (l : Nat),
      let r := clusterOfPhys h
      logOf s h = some l → repairOf s r = none →
        ((rg s .bup (rBupRowmapr r)).bit 0 = true → Leads (.rowShiftRepair h readable) s fun y =>
          repairOf y r = some { tile := h, lidx := l, readable := readable } ∧
          (rg y .bup (rBupRowmapr r)).bit (39 + h % 17) = true ∧ h.val ∈ y.bup.retiredInService ∧ SameMemory s y) ∧
        ((rg s .bup (rBupRowmapr r)).bit 0 = false → Leads (.rowShiftRepair h readable) s fun y =>
          repairOf y r = some { tile := h, lidx := l, readable := readable, degraded := true } ∧
          (∀ i, i < 16 → physOf y (r * 16 + i) = none) ∧ h.val ∈ y.bup.retiredInService ∧ SameMemory s y)) ∧
    (∀ (c : Fin 32) (x : RowRepair), repairOf s c = some x → x.degraded = false → repairMayRun s c = true →
      (x.moved < shiftCount x → Leads (.tileMigrateDone c) s fun y =>
        repairOf y c = some { x with moved := x.moved + 1 } ∧ SameMemory s y) ∧
      (∀ p, shiftCount x ≤ x.moved → x.refill = none → partOfCluster s c = some p → Leads (.refillDone c) s fun y =>
        (∃ ok m, repairOf y c = some { x with refill := some ok, slice := m } ∧
          ((rgEff s (.part p) rPartRefill).bit 63 = false → ok = false ∧ m = x.slice)) ∧
        (s.bup.handed = [] → SameMemory s y)) ∧
      (∀ p, shiftCount x ≤ x.moved → x.refill.isSome = true → partOfCluster s c = some p →
        x.tile = c.val * 17 + x.lidx % 16 → x.lidx < 512 → Leads (.repairComplete c) s fun y =>
          repairOf y c = none ∧ holeOf y c = x.lidx % 16 ∧ (rg y .bup (rBupRowmapr c)).bit 0 = false ∧
          (∀ j, x.lidx % 16 < j → j < 16 →
            let old := s.tile (c.val * 17 + j)
            let new := y.tile (c.val * 17 + j + 1)
            new.store = old.store ∧ new.slice = old.slice ∧ new.acc = old.acc ∧ new.cnt = old.cnt ∧ new.ctx = old.ctx ∧
            new.qs = old.qs ∧ new.img = old.img) ∧
          (y.tile (x.tile + 1)).slice = x.slice ∧
          (y.tile (x.tile + 1)).cnt = (if x.readable then (s.tile x.tile).cnt else []) ∧
          rf y (.part p) rPartRepair 63 48 = Code.tileLost.toNat ∧ rf y (.part p) rPartRepair 29 20 = x.lidx ∧
          rf y (.part p) rPartRepair 34 30 = x.lidx % 16 ∧ rf y (.part p) rPartRepair 39 35 = c.val ∧
          ((rg y (.part p) rPartRepair).bit 3 = true ↔ x.refill = some true))) ∧
    (∀ (c : Fin 32) (x : RowRepair) (p : Nat), repairOf s c = some x → x.degraded = true → partOfCluster s c = some p →
      x.lidx < 512 → Leads (.repairComplete c) s fun y => repairOf y c = none ∧
        rf y (.part p) rPartRepair 63 48 = Code.rowDegraded.toNat ∧ (rg y (.part p) rPartRepair).bit 2 = true)

/-! Resets. -/

/-- What the start of a reset of scope `x` leaves: the scope is under reset, narrower resets inside it are taken over,
queue commands that have not started and filling groups are gone, and no byte of any memory has changed. -/
def ResetStarted (x : ResetScope) (s y : State) : Prop :=
  x ∈ y.bup.resets ∧ (∀ z, z ≠ x → (z ∈ y.bup.resets ↔ z ∈ s.bup.resets ∧ scopeInside s x z = false)) ∧
    (rg y .rst rRstStat).bit 63 = true ∧ SameMemory s y ∧
    ∀ h, (scopeHasTile s x h = true → ∀ q, ((y.tile h).qOf q).held = [] ∧
      ((y.tile h).qOf q).flights = ((s.tile h).qOf q).flights) ∧ (scopeHasTile s x h = false → y.tile h = s.tile h)

/-- Resets (R332, R377 to R381): RST_REQ starts a tile's, a cluster's or the device's reset, PART_RESET a partition's;
a scope that has drained is cleared: contexts, queues, accumulators and groups of its tiles, for a partition its
counters and cores too, while stores and slices stay; a device reset leaves everything in the core domain at its reset
value. The model's own choices in it: log entries 56 and 57. -/
def Obligations.Resets : Prop :=
  ∀ (a : Acc) (v : Word) (p : Fin 32) (s t : State),
    (let w := rg t .rst rRstReq
     ∀ x, scopeOf w = some x → insideReset s x = false → (∀ r, scopeCluster x = some r → mayReset s r = true) →
      (taken (.tileReset a v) s = some t → w.field 23 16 = 0 → Leads (.tileReset a v) s (ResetStarted x s)) ∧
      (taken (.clusterReset a v) s = some t → w.field 23 16 = 0 → Leads (.clusterReset a v) s (ResetStarted x s)) ∧
      (taken (.deviceReset a v) s = some t → w.field 23 16 = 0xD7 → Leads (.deviceReset a v) s fun y =>
        x = .device ∧ ResetStarted .device s y ∧ rf y .rst rRstCause 3 0 = 1 ∧
        rf y .rst rRstCause 63 32 = min (rf s .rst rRstCause 63 32 + 1) (2 ^ 32 - 1))) ∧
    (taken (.deviceReset a v) s = some t → rf t .rst rRstReq 9 0 = 0 → rf t .rst rRstReq 23 16 ≠ 0xD7 →
      exec (.deviceReset a v) s = .next (rejectWrite a .rst .illegalValue s)) ∧
    (taken (.partReset a p v) s = some t → (rg s (.part p) rPartReset).bit 62 = false → insideReset s (.part p) = false →
      Leads (.partReset a p v) s fun y => ResetScope.part p ∈ y.bup.resets ∧ (rg y (.part p) rPartReset).bit 62 = true ∧
        trvState y p = trvEMPTY ∧ y.part p = {} ∧ rg y (.part p) rPartPause = 0 ∧ rf y (.part p) rPartDbrkcnt 31 0 = 0 ∧
        (rg y (.part p) rPartRunepoch).bit 62 = false ∧ (∀ q, q ≠ p.val → y.part q = s.part q) ∧ SameMemory s y) ∧
    (∀ x, x ∈ s.bup.resets → x ≠ .device → drained s x = true → Leads (.resetDone x) s fun y =>
      (∀ z, z ∈ y.bup.resets ↔ z ∈ s.bup.resets ∧ z ≠ x) ∧ SameMemory s y ∧
      (∀ h, scopeHasTile s x h = true → y.tile h = (match x with
        | .part _ => { (s.tile h).reset with cnt := [], sat := [], matrixBarred := false }
        | _ => (s.tile h).reset)) ∧
      (∀ h, scopeHasTile s x h = false → y.tile h = s.tile h) ∧
      (∀ q, x = .part q → (∀ g i, i < 64 → partOfGroup s g = some q.val → holderValue y (.group g i) = 0) ∧
        (∀ k, partOfGrotto s k = some q.val → y.grotto k = (s.grotto k).reset) ∧
        (rg y (.part q) rPartReset).bit 62 = false)) ∧
    (∀ x, x ∈ s.bup.resets → x ≠ .device → drained s x = false → exec (.resetDone x) s = .next s) ∧
    (.device ∈ s.bup.resets → drained s .device = true ∨ rf s .rst rRstCause 3 0 = 2 → Leads (.resetDone .device) s fun y =>
      bupStep y = 3 ∧ bupStatus y = 2 ∧ y.bup.resets = [] ∧ y.tiles = [] ∧ y.grt = [] ∧ y.mem = [] ∧ y.parts = [] ∧
      y.eff = [] ∧ y.hv = [] ∧ y.adds = [] ∧ y.walks = [] ∧ y.links = [] ∧ y.cairn = s.cairn ∧ y.time = s.time ∧
      y.glow = s.glow ∧ y.steward = s.steward ∧ y.hostMem0 = s.hostMem0 ∧ y.hostMem1 = s.hostMem1 ∧
      y.sec.keyRevBurnt = s.sec.keyRevBurnt ∧ y.sec.minSvnBurnt = s.sec.minSvnBurnt ∧ y.resetAt = s.cyc)

/-! Power, clocks and heat. -/

/-- Supply (R404, R405, R407 to R411): a core rail below warning stretches the clocks, 500 ns of it freezes commits and
breaks the running partitions' determinism, 100 µs asks for skipping; recovery of the last monitor ends both; a reset by
supply resets the device; VIO is logged and VGST holds the guest; PMBus answers are shown, the third miss in a row is
reported. -/
def Supply : Prop :=
  ∀ (m : Fin 201) (mv ns : Nat) (s : State),
    let r := railOfMonitor m
    (m.val < 194 → s.therm.low.contains m.val = false → Leads (.supplyDroop m mv) s fun y =>
      y.therm = { s.therm with low := m.val :: s.therm.low } ∧ (rg y .clk rClkState).bit 1 = true ∧
      y = { s with regs := y.regs, therm := y.therm }) ∧
    (194 ≤ m.val ∨ s.therm.low.contains m.val = true → exec (.supplyDroop m mv) s = .next s) ∧
    (s.therm.low.contains m.val = true → s.therm.warned.contains m.val = false → Leads (.supplyDip m) s fun y =>
      y.therm = { s.therm with warned := m.val :: s.therm.warned } ∧ railState y r = 3 ∧ SameMemory s y ∧
      (s.therm.warned = [] → (rg y .clk rClkState).bit 0 = true ∧
        rf y .clk rPwrStat 15 0 = min (rf s .clk rPwrStat 15 0 + 1) 65535 ∧
        ∀ p, p < 32 → partRunning s p = true → 4 ∈ (y.part p).broken)) ∧
    (s.therm.low.contains m.val = true → (∀ x ∈ s.therm.low, x = m.val) → Leads (.supplyRecover m mv ns) s fun y =>
      y.therm.low = [] ∧ y.therm.warned = [] ∧ y.therm.back = [] ∧ y.therm.sustained = false ∧
      (rg y .clk rClkState).bit 0 = false ∧ (rg y .clk rClkState).bit 1 = false ∧ SameMemory s y ∧
      (∃ n, n ≤ ns * 3 / 10 ∧
        rf y .clk rClkState 63 32 = min (rf s .clk rClkState 63 32 + (ns * 6 / 5 + n)) (2 ^ 32 - 1)) ∧
      (railState s r = 3 → railState y r = 2)) ∧
    (s.therm.low.contains m.val = true → (∃ x ∈ s.therm.low, x ≠ m.val) → Leads (.supplyRecover m mv ns) s fun y =>
      y.therm.low = s.therm.low.filter (· != m.val) ∧ rg y .clk rClkState = rg s .clk rClkState ∧
      y = { s with regs := y.regs, therm := y.therm }) ∧
    (s.therm.warned.contains m.val = true → s.therm.sustained = false → Leads (.supplySustained m mv) s fun y =>
      y.therm = { s.therm with sustained := true, supplyNext := rf s .clk rPwrLimit 2 0 } ∧
      rf y .clk rPwrStat 23 16 = min (rf s .clk rPwrStat 23 16 + 1) 255 ∧
      Reported (srcMonitor m) .supplySustained (mv % 2 ^ 16) s y ∧ SameMemory s y) ∧
    (m.val < 194 → Leads (.supplyReset m mv) s fun y => ResetStarted .device s y ∧ rf y .rst rRstCause 3 0 = 2 ∧
      rf y .rst rRstCause 63 32 = min (rf s .rst rRstCause 63 32 + 1) (2 ^ 32 - 1) ∧
      Reported srcBup .supplyReset (mv % 2 ^ 16 + m.val * 2 ^ 16) s y) ∧
    (m.val = 194 → Leads (.railWarning m mv ns) s fun y =>
      Reported (srcMonitor m) .supplyWarning (mv % 2 ^ 16 + ns % 2 ^ 32 * 2 ^ 16) s y ∧
      y = { s with regs := y.regs, glow := y.glow }) ∧
    (197 ≤ m.val → Leads (.railWarning m mv ns) s fun y =>
      if Config.variantG = true ∧ (rg s .gst rGstCtrl).bit 1 = false then
        (rg y .gst rGstCtrl).bit 1 = true ∧ rf y .gst rGstCtrl 10 8 = 0 ∧ Reported srcUcie .guestLinkDown 0 s y
      else y = s) ∧
    exec (.pmbusPoll []) s = .next s ∧
    (∀ (x : PmbusReading) (rest : List PmbusReading) (t : State), exec (.pmbusPoll [x]) s = .next t →
      exec (.pmbusPoll (x :: rest)) s = exec (.pmbusPoll rest) t) ∧
    (∀ x : PmbusReading, railState s x.rail ≠ 0 → Leads (.pmbusPoll [x]) s fun y =>
      (x.status = none → SMap.get 0 y.therm.pmbusMiss x.rail = SMap.get 0 s.therm.pmbusMiss x.rail + 1 ∧
        (SMap.get 0 s.therm.pmbusMiss x.rail = 2 →
          Reported (srcMonitor (firstMonitor x.rail)) .supplyWarning (2 ^ 63) s y)) ∧
      (∀ w, x.status = some w → SMap.get 0 y.therm.pmbusMiss x.rail = 0 ∧
        rf y .clk (rPwrRailr x.rail) 63 48 = x.iout.toNat ∧ rf y .clk (rPwrRailr x.rail) 15 8 = w.toNat % 256 ∧
        (x.fault = true → Reported (srcMonitor (firstMonitor x.rail)) .supplyWarning (2 ^ 63) s y)) ∧
      railState y x.rail = railState s x.rail ∧ SameMemory s y) ∧
    (s.therm.undoDiv = some false → exec (.avsbusCompletion 0) s =
      .next { s with therm := { s.therm with undoDiv := some true } }) ∧
    (s.therm.undoDiv ≠ some false → exec (.avsbusCompletion 0) s = .next s)

/-- Cluster clocks (R387, R414): a PLL is turned on and off by its bit, and off only for a cluster that no partition holds;
LOCKED follows; the clock monitor stops a cluster whose PLL fails and degrades its row, changes the saddle and glow clocks to
their standby, and a fault of the saddle clock on its standby lies outside the guarantee. -/
def ClusterClocks : Prop :=
  ∀ (a : Acc) (v : Word) (s t : State),
    (taken (.pllOn a v) s = some t →
      let old := rg s .clk rClkPll
      let new := rg t .clk rClkPll
      let off : Prop := ∃ r, r < 32 ∧ old.bit r = true ∧ new.bit r = false ∧ (partOfCluster s r).isSome = true
      let on : Prop := ∃ r, r < 32 ∧ old.bit r = false ∧ new.bit r = true ∧
        ((rg s .bup (rBupRowmapr r)).bit 32 = true ∨ s.bup.clockDead.contains r = true)
      (off ∨ on → exec (.pllOn a v) s = .next (rejectWrite a .clk .wrongState s)) ∧
      (¬ off → ¬ on → Leads (.pllOn a v) s fun y => y = { s with regs := y.regs } ∧
        ∀ r, r < 32 → (rg y .clk rClkPll).bit r = new.bit r ∧
          (rg y .clk rClkPll).bit (32 + r) = (new.bit r && old.bit (32 + r)))) ∧
    (∀ c : Fin 32, (rg s .clk rClkPll).bit c = true → s.therm.stopped = false → Leads (.pllLocked c) s fun y =>
      (rg y .clk rClkPll).bit (32 + c) = true ∧ y = { s with regs := y.regs } ∧
      ∀ r, r ≠ 32 + c.val → (rg y .clk rClkPll).bit r = (rg s .clk rClkPll).bit r) ∧
    (∀ c : Fin 32, (rg s .clk rClkPll).bit c = false ∨ s.therm.stopped = true → exec (.pllLocked c) s = .next s) ∧
    (∀ f : ClockFindings, f.saddle = true → (rg s .clk rClkState).bit 3 = true →
      exec (.clockMonitor f) s = .fault .saddleClockLost) ∧
    (∀ f : ClockFindings, f.saddle = false ∨ (rg s .clk rClkState).bit 3 = false → Leads (.clockMonitor f) s fun y =>
      (∀ r, r < 32 → f.clusters.getLsbD r = true → (rg s .clk rClkPll).bit (32 + r) = true →
        (rg y .clk rClkPll).bit (32 + r) = false ∧ (rg y .clk rClkPll).bit r = false ∧ r ∈ y.bup.clockDead ∧
        ∀ i, i < 16 → physOf y (r * 16 + i) = none) ∧
      (f.saddle = true → (rg y .clk rClkState).bit 3 = true) ∧ (f.glow = true → (rg y .clk rClkState).bit 2 = true) ∧
      SameMemory s y)

/-- Supply, rails and clocks. The model's own choices in it: log entries 40, 55 and 58. -/
def Obligations.SupplyAndClocks : Prop := Supply ∧ ClusterClocks

/-- Heat and coolant (R412, R417 to R429): what a housekeeping round shows of a single sensor, skips, divides and
shuts down for; the end of a grace; ACK; the coolant input written, stale and stopped. The model's own choices in it:
log entries 59, 60, 61 and 62. -/
def Obligations.Thermal : Prop :=
  ∀ (a : Acc) (v : Word) (s t : State),
    (∀ r : Round, Leads (.housekeepingRound r) s fun y =>
      (∀ (n : Fin 1352) (x : Int), 1088 ≤ n.val → n.val < 1344 →
        r.sensors.find? (fun e => e.1.val == n.val) = some (n, some x) → -80 ≤ x → x ≤ 600 →
        (rg s .thm (rThmSensn n)).bit 3 = false →
          rf y .thm (rThmSensn n) 47 32 = unsignedOf 16 x ∧ rf y .thm (rThmSensn n) 31 16 = unsignedOf 16 x ∧
          rf y .thm (rThmSensn n) 3 0 = 0 ∧
          (s.therm.stopped = false →
            ((n.val < 1216 ∨ 1280 ≤ n.val) → 420 < x → 1 ≤ y.therm.thermNext) ∧
            (1216 ≤ n.val → n.val < 1280 → 464 ≤ x → 2 ≤ rf y .clk rClkState 11 10) ∧
            (((n.val < 1216 ∨ 1280 ≤ n.val) ∧ 440 ≤ x ∨ (1216 ≤ n.val ∧ n.val < 1280) ∧ 480 ≤ x) →
              y.therm.stopped = true ∧ (rg y .thm rThmState).bit 63 = true ∧ rf y .clk rClkPll 63 32 = 0 ∧
              railState y 0 = 0 ∧ railState y 3 = 0 ∧ railState y 2 = 0))) ∧
      (∀ n : Fin 1352, 1088 ≤ n.val → n.val < 1344 → r.sensors.find? (fun e => e.1.val == n.val) = some (n, none) →
        (rg y .thm (rThmSensn n)).bit 3 = true ∧ rf y .thm (rThmSensn n) 1 0 = 2) ∧
      (s.therm.stopped = false →
        y.therm.powers = (r.power :: s.therm.powers).take 1000 ∧
        rf y .clk rPwrStat 63 48 = min 65535 ((y.therm.powers.take 10).foldl (· + ·) 0 / 10) ∧
        rf y .clk rPwrStat 47 32 = min 65535 (y.therm.powers.foldl (· + ·) 0 / 1000) ∧
        rf y .clk rPwrStat 31 24 = min 255 (rf s .clk rPwrStat 31 24 + r.planExceeded)) ∧
      SameMemory s y ∧ y.cyc = s.cyc) ∧
    (∀ e, s.therm.graceEnd = some e → Leads .graceExpiry s fun y => y.cyc = max s.cyc e ∧ y.therm.graceEnd = none ∧
      rf y .thm rThmSlow 31 16 = 0 ∧ y.therm.thermNext = max s.therm.thermNext (max (rf s .thm rThmSlow 2 0) 1) ∧
      SameMemory s y) ∧
    (s.therm.graceEnd = none → exec .graceExpiry s = .next s) ∧
    (let new := rg t .thm rThmSlow
     taken (.ack a v) s = some t → 5 ≤ new.field 41 32 → new.field 41 32 ≤ 1000 → rf s .thm rThmSlow 2 0 ≤ new.field 11 9 →
      (rf s .thm rThmSlow 2 0 ≠ 0 → exec (.ack a v) s =
        .next (rput { t with therm := { s.therm with graceEnd := none, answered := true } } .thm rThmSlow 31 16 0)) ∧
      (rf s .thm rThmSlow 2 0 = 0 → exec (.ack a v) s = .next (rejectWrite a .thm .wrongState s))) ∧
    (let old := rg s .thm rThmCoolant
     let new := rg t .thm rThmCoolant
     taken (.coolantWrite a v) s = some t →
      (new.field 11 0 = 0 → exec (.coolantWrite a v) s = .next (rejectWrite a .thm .illegalValue s)) ∧
      (new.field 11 0 ≠ 0 → new.bit 63 = true → a.half = .full → exec (.coolantWrite a v) s =
        .next (rput { t with therm := { s.therm with lastCoolant := some s.cyc, flowKnown := true } } .thm rThmCoolant 62 62 0)) ∧
      (new.field 11 0 ≠ 0 → (new.bit 63 = true → a.half ≠ .full) →
        (new.bit 63 = false → new.field 47 32 = old.field 47 32 ∧ new.field 23 16 = old.field 23 16) →
        exec (.coolantWrite a v) s = .next t)) ∧
    ((rg s .thm rThmCoolant).bit 63 = true → (rg s .thm rThmCoolant).bit 62 = false → Leads .coolantStale s fun y =>
      (rg y .thm rThmCoolant).bit 62 = true ∧ Reported (srcSensor 1352) .sensorSuspect 1352 s y ∧ SameMemory s y ∧
      (∀ c, s.therm.lastCoolant = some c → y.cyc = max s.cyc (c + 750000000))) ∧
    ((rg s .thm rThmCoolant).bit 63 = false → exec .coolantStale s = .next s) ∧
    (Leads .i3cZeroFlow s fun y => (rg y .thm rThmCoolant).bit 61 = true ∧ (rg y .thm rThmState).bit 55 = true ∧
      y.therm.flowOk = 0 ∧ SameMemory s y ∧ ((rg s .thm rThmState).bit 55 = false →
        2 ≤ rf y .clk rClkState 11 10 ∧
        (2 ≤ rf s .clk rClkState 11 10 → Reported (srcSensor 1353) .coolantStopped 1 s y)))

/-! The saddle controller. -/

/-- The saddle controller (R385, R388, R390): a fault stops it; it beats once a millisecond; the watchdog restarts it
on the image in its half where the image's digest is the verified one, halts it where it is not, and after three
restarts within one hour; RESTART starts it again and clears the count. The model's own choices in it: log entry 50. -/
def Obligations.SaddleController : Prop :=
  ∀ (a : Acc) (v : Word) (s t : State),
    (∀ c : ScCause, s.sec.running.isSome = true → scState s = 0 → Leads (.scFault c) s fun y =>
      scState y = 1 ∧ y = { s with regs := y.regs, sec := y.sec } ∧
      rf y .ras rRasScstat 63 48 = (match c with
        | .residue => Code.residueFault
        | .memory => Code.eccUncorrected).toNat) ∧
    (∀ c : ScCause, scState s ≠ 0 → exec (.scFault c) s = .next s) ∧
    (s.sec.running.isSome = true → scState s = 0 → debugStopped s 0 = false → Leads .scbeatAdvance s fun y =>
      y.cyc = max s.cyc (s.sec.beatAt + 1500000) ∧ y.sec.beatAt = y.cyc ∧ y.sec.scBeat = (s.sec.scBeat + 1) % 2 ^ 32 ∧
      y.sec.beatsLeft = s.sec.beatsLeft - 1 ∧ y.regs = s.regs ∧ SameMemory s y) ∧
    (∀ f, s.sec.running = some f → scState s ≠ 2 → hostate s ≠ hoPROBATION →
      let good : Prop := (imageIn s.bup.imageRam f.half).digest = f.digest
      let s1 := if s.sec.scStopped.isSome then s else s.upTo (s.sec.beatAt + 15000000)
      ((recentRestarts s1).length < 3 → good → Leads .scWatchdog s fun y =>
        scState y = 0 ∧ rf y .ras rRasScstat 63 48 = Code.scRestarted.toNat ∧ y.sec.scStopped = none ∧
        rf y .ras rRasScstat 47 32 = min (rf s .ras rRasScstat 47 32 + 1) 65535 ∧ y.sec.restarts.length ≤ 3 ∧
        y.sec.running = some f ∧ ∀ i, memOf y i = memOf s i) ∧
      ((recentRestarts s1).length < 3 → ¬ good → Leads .scWatchdog s fun y =>
        scState y = 2 ∧ rf y .ras rRasScstat 63 48 = Code.fwRejected.toNat ∧ ∀ i, memOf y i = memOf s i) ∧
      (3 ≤ (recentRestarts s1).length → logDma s = false → s.glow.vecOwed = false → Leads .scWatchdog s fun y =>
        scState y = 2 ∧ rf y .ras rRasScstat 63 48 = Code.scWatchdog.toNat ∧ ∀ i, memOf y i = memOf s i) ∧
      (taken (.scRestart a v) s = some t → scState s ≠ 1 → good → Leads (.scRestart a v) s fun y =>
        scState y = 0 ∧ y.sec.restarts = [] ∧ y.sec.scStopped = none ∧ y.sec.running = some f ∧
        ∀ i, memOf y i = memOf s i)) ∧
    (taken (.scRestart a v) s = some t → scState s = 1 →
      exec (.scRestart a v) s = .next (rejectWrite a .ras .wrongState s))

/-- Live handover and fuses (R431 to R437): GO loads, ABORT ends what has not jumped; the load is verified, waits for
a quiescent point or starts a halted controller; the jump begins a probation of 100 beats that ends in done; SVNGO
burns the version of the image that runs, REVGO a slot that neither runs nor is the last. The model's own choices in
it: log entry 49. -/
def Obligations.Handover : Prop :=
  ∀ (a : Acc) (v : Word) (s t : State),
    (let n := rf t .sec rSecHoctrl 22 0
     taken (.handoverGo a v) s = some t → (valueOf a v).bit 62 = false →
      (n < 0x200 ∨ 0x400000 < n → exec (.handoverGo a v) s = .next (rejectWrite a .sec .outOfRange s)) ∧
      (0x200 ≤ n → n ≤ 0x400000 → (hostate s = hoIDLE ∨ hostate s = hoDONE ∨ hostate s = hoFAILED) → scState s ≠ 1 →
        exec (.handoverGo a v) s = .next (setHostate hoLOADING t)) ∧
      (0x200 ≤ n → n ≤ 0x400000 → (1 ≤ hostate s ∧ hostate s ≤ 4 ∨ scState s = 1) →
        exec (.handoverGo a v) s = .next (rejectWrite a .sec .wrongState s))) ∧
    (taken (.handoverAbort a v) s = some t → (valueOf a v).bit 63 = false →
      (hostate s = hoPROBATION → exec (.handoverAbort a v) s = .next (rejectWrite a .sec .wrongState s)) ∧
      (1 ≤ hostate s → hostate s ≤ 3 → exec (.handoverAbort a v) s =
        .next (setHostate hoIDLE { t with sec := { s.sec with waiting := none } })) ∧
      (hostate s = 0 ∨ 4 < hostate s → exec (.handoverAbort a v) s = .next t)) ∧
    (hostate s = hoLOADING →
      let half := spareHalf s
      let bs := (s.hostMem (stewardPort s)).readBytes (rf s .sec rSecHoaddr 45 12 * 4096) (rf s .sec rSecHoctrl 22 0)
      let s1 := { s with bup := { s.bup with imageRam := s.bup.imageRam.writeBytes (halfBase half) bs } }
      (portUp s (stewardPort s) = false → Leads .handoverLoaded s fun y => hostate y = hoFAILED ∧
        rf y .sec rSecFwstat 63 48 = Code.fwRejected.toNat ∧ rf y .sec rSecFwstat 47 44 = 6 ∧ y.bup = s.bup) ∧
      (portUp s (stewardPort s) = true → Leads .handoverLoaded s fun y => y.bup = s1.bup ∧ SameMemory s y ∧
        match fwCheck s1 half with
        | some r => hostate y = hoFAILED ∧ rf y .sec rSecFwstat 63 48 = Code.fwRejected.toNat ∧
            rf y .sec rSecFwstat 47 44 = r % 16 ∧ y.sec.running = s.sec.running ∧ Reported srcSec .fwRejected 0 s y
        | none =>
          (scState s = 2 → hostate y = hoDONE ∧ scState y = 0 ∧ y.sec.running = some (imageIn s1.bup.imageRam half)) ∧
          (scState s ≠ 2 → hostate y = hoAWAIT ∧ y.sec.waiting = some (imageIn s1.bup.imageRam half) ∧
            y.sec.verifiedAt = s.cyc ∧ y.sec.running = s.sec.running))) ∧
    (∀ f old, hostate s = hoAWAIT → s.sec.waiting = some f → s.sec.running = some old → quiescent s = true → scState s = 0 →
      s.cyc ≤ s.sec.verifiedAt + 1500000000 → Leads .quiescentPoint s fun y =>
        hostate y = hoPROBATION ∧ y.sec = { s.sec with running := some f, kept := some old, waiting := none, beatsLeft := 100 } ∧
        rf y .sec rSecFwstat 39 32 = f.svn % 256 ∧ y = { s with regs := y.regs, sec := y.sec }) ∧
    ((hostate s ≠ hoAWAIT ∨ quiescent s = false ∨ scState s ≠ 0) → exec .quiescentPoint s = .next s) ∧
    (hostate s = hoAWAIT → Leads .quiescenceTimeout s fun y => hostate y = hoFAILED ∧ y.sec = { s.sec with waiting := none } ∧
      rf y .sec rSecFwstat 63 48 = Code.wrongState.toNat ∧ y.cyc = max s.cyc (s.sec.verifiedAt + 1500000000)) ∧
    (hostate s = hoPROBATION → s.sec.beatsLeft = 0 → Leads .probationEnd s fun y =>
      hostate y = hoDONE ∧ y.sec = { s.sec with kept := none } ∧ Reported srcSec .fwHandover 0 s y ∧ SameMemory s y) ∧
    (∀ f, taken (.svngo a v) s = some t → (valueOf a v).bit 62 = false → (valueOf a v).field 55 48 = 0x5E →
      (hostate s = 0 ∨ 4 < hostate s) → s.sec.running = some f →
        (minSvn s < f.svn → exec (.svngo a v) s = .next { t with sec := { s.sec with minSvnBurnt := f.svn } }) ∧
        (f.svn ≤ minSvn s → exec (.svngo a v) s = .next (rejectWrite a .sec .wrongState s))) ∧
    (let slot := rf t .sec rSecFusectrl 31 30
     taken (.revgo a v) s = some t → (valueOf a v).bit 63 = false → (valueOf a v).field 55 48 = 0x5E →
      (hostate s = 0 ∨ 4 < hostate s) → (∀ f, s.sec.running = some f → f.slot ≠ slot) →
        exec (.revgo a v) s = .next
          (if (List.range 4).any fun k => k != slot && slotUsable s k then
            { t with sec := { s.sec with keyRevBurnt := s.sec.keyRevBurnt ||| BitVec.ofNat 4 (2 ^ slot) } }
           else rejectWrite a .sec .wrongState s)) ∧
    ((taken (.svngo a v) s = some t → (valueOf a v).field 55 48 ≠ 0x5E →
        exec (.svngo a v) s = .next (rejectWrite a .sec .illegalValue s)) ∧
      (taken (.revgo a v) s = some t → (valueOf a v).field 55 48 ≠ 0x5E →
        exec (.revgo a v) s = .next (rejectWrite a .sec .illegalValue s)))

/-! The glow log. -/

/-- The glow log (R394 to R399): the next pending entry is stamped, numbered and stored, over the oldest undrained one
where the ring is full; in DMA mode it goes to the host ring; a write of RDSEQ drains no more than there is; CLR
clears the counts. The model's own choices in it: log entry 48. -/
def Obligations.GlowLog : Prop :=
  ∀ (a : Acc) (v : Word) (s t : State),
    (∀ k e, nextEntry s = some (k, e) →
      let seq := rf s .ras rLogWrseq 31 0
      let rd := rf s .ras rLogRdseq 31 0
      let bs := entryBytes s seq e
      (logDma s = false → s.glow.vecOwed = false → Leads .logTake s fun y =>
        y.glow = { s.glow with slots := SMap.put (seq % 2048) bs s.glow.slots, pend := SMap.drop k s.glow.pend, lastSource := k } ∧
        rf y .ras rLogWrseq 31 0 = (seq + 1) % 2 ^ 32 ∧
        rf y .ras rLogRdseq 31 0 = (if undrained s = 2048 then (rd + 1) % 2 ^ 32 else rd) ∧
        rf y .ras rLogCount 31 0 = (if undrained s = 2048 then min (rf s .ras rLogCount 31 0 + 1) (2 ^ 32 - 1)
          else rf s .ras rLogCount 31 0) ∧ SameMemory s y ∧ y.cyc = s.cyc) ∧
      (logDma s = true → portUp s (stewardPort s) = true → rd = seq → Leads .logTake s fun y =>
        y.hostMem (stewardPort s) = (s.hostMem (stewardPort s)).writeBytes
          (rf s .ras rLogDma 45 12 * 4096 + 32 * (seq % 2 ^ rf s .ras rLogDma 52 48)) bs ∧
        rf y .ras rLogWrseq 31 0 = (seq + 1) % 2 ^ 32 ∧ rf y .ras rLogRdseq 31 0 = (seq + 1) % 2 ^ 32 ∧
        y.glow.pend = SMap.drop k s.glow.pend ∧ ∀ i, memOf y i = memOf s i)) ∧
    (nextEntry s = none → logDma s = false → s.glow.vecOwed = false → exec .logTake s = .next s) ∧
    (let n := (rf t .ras rLogRdseq 31 0 + 2 ^ 32 - rf s .ras rLogRdseq 31 0) % 2 ^ 32
     taken (.rdseqWrite a v) s = some t →
      (logDma s = true → exec (.rdseqWrite a v) s = .next (rejectWrite a .ras .wrongState s)) ∧
      (logDma s = false → undrained s < n → exec (.rdseqWrite a v) s = .next (rejectWrite a .ras .outOfRange s)) ∧
      (logDma s = false → n ≤ undrained s → exec (.rdseqWrite a v) s =
        .next { t with glow := { s.glow with lostLogged := false } })) ∧
    (taken (.logClr a v) s = some t → 1 ≤ rf t .ras rLogCtrl 43 32 → rf t .ras rLogCtrl 43 32 ≤ 2048 →
      exec (.logClr a v) s = .next (rset t .ras rLogCount 0))

/-! Security. -/

/-- The answer whose bytes the spec leaves to SPDM (log entry 2) goes out on a port. -/
def Answered (port : Bool) (s y : State) : Prop :=
  y.sent = .spdm port (Config.spdmAnswer s.free) :: s.sent ∧ y.free = s.free + 1

/-- Attestation and IDE (R438 to R442): a port answers what its responder has, at most two sessions at a time, and
nothing while its link is down; a measurement block is formed as it is read; an established session programs keys and
brings key sets into and out of use; a failed integrity check breaks the stream: its keys are gone and no posted
traffic leaves the port until it is established again. The model's own choices in it: log entries 2, 66, 67 and 69. -/
def Obligations.Attestation : Prop :=
  ∀ (port : Bool) (s : State),
    let p := s.portOf port
    (∀ (r : SpdmRequest) (index : Nat), p.up = false →
      exec (.spdmRequest port r) s = .next s ∧ exec (.getMeasurements port index) s = .next s) ∧
    (p.up = true →
      (∀ r ∈ [SpdmRequest.pskExchange, .mutualAuth, .setCertificate, .getCsr, .encapsulated, .other],
        exec (.spdmRequest port r) s = .next (s.send (.spdmUnsupported port))) ∧
      (∀ r ∈ [SpdmRequest.discovery, .getVersion, .getCapabilities, .negotiateAlgorithms, .getDigests, .chunk],
        Leads (.spdmRequest port r) s fun y => Answered port s y ∧ y = { s with sent := y.sent, free := y.free }) ∧
      (Leads (.spdmRequest port .keyExchange) s fun y => Answered port s y ∧
        (∀ k, [0, 1].find? (fun k => !(p.sessions.any fun e => e.1 == k)) = some k →
          y.portOf port = { p with sessions := (k, false) :: p.sessions }) ∧
        ((∀ k, k < 2 → (p.sessions.any fun e => e.1 == k) = true) → y.portOf port = p) ∧
        y.portOf (!port) = s.portOf (!port)) ∧
      (∀ k, Leads (.spdmRequest port (.finish k)) s fun y => Answered port s y ∧
        (∀ b, (k, b) ∈ p.sessions → (k, true) ∈ (y.portOf port).sessions) ∧
        (∀ j b, j ≠ k → ((j, b) ∈ (y.portOf port).sessions ↔ (j, b) ∈ p.sessions)) ∧
        y.portOf (!port) = s.portOf (!port)) ∧
      (∀ k, Leads (.spdmRequest port (.endSession k)) s fun y => Answered port s y ∧
        y.portOf port = { p with sessions := p.sessions.filter fun e => e.1 != k } ∧ y.portOf (!port) = s.portOf (!port)) ∧
      (∀ i bs, measurement s i = some bs → i ≠ 0xFF → exec (.getMeasurements port i) s = .next (s.send (.spdm port bs))) ∧
      (∀ i, measurement s i = none → i ≠ 0xFF → Leads (.getMeasurements port i) s (Answered port s)) ∧
      (exec (.getMeasurements port 0xFF) s =
        .next (s.send (.spdm port ((List.range 6).flatMap fun i => (measurement s (i + 1)).getD []))))) ∧
    measurement s 1 = some (bytesOf 48 Config.romDigest.toNat) ∧ measurement s 2 = some (shownDigest s) ∧
    measurement s 5 = some (match s.sec.waiting with | some f => bytesOf 48 f.digest.toNat | none => bytesOf 48 0) ∧
    (∀ (k : Nat) (x : IdeKey) (z : IdeSet), sessionOpen s port k = false →
      exec (.ideQuery port k) s = .next s ∧ exec (.keyProg port k x) s = .next s ∧ exec (.kSetGo port k z) s = .next s ∧
      exec (.kSetStop port k z) s = .next s) ∧
    (∀ k, sessionOpen s port k = true →
      (Leads (.ideQuery port k) s fun y => Answered port s y ∧ y = { s with sent := y.sent, free := y.free }) ∧
      (∀ x : IdeKey, x.stream ≤ 4 → x.sub ≤ 2 → Leads (.keyProg port k x) s fun y => Answered port s y ∧
        x ∈ (y.portOf port).ideKeys ∧
        (∀ z, z ≠ x → (z ∈ (y.portOf port).ideKeys ↔ z ∈ p.ideKeys ∧ keySetOf z ≠ keySetOf x)) ∧
        y.portOf port = { p with ideKeys := (y.portOf port).ideKeys } ∧ y.portOf (!port) = s.portOf (!port)) ∧
      (∀ z : IdeSet, z.stream ≤ 4 → z.sub ≤ 2 → (∃ x ∈ p.ideKeys, keySetOf x = z) →
        (p.ideBroken.contains z.stream = false → Leads (.kSetGo port k z) s fun y => Answered port s y ∧
          z ∈ (y.portOf port).ideSecure ∧ (∀ w, w ≠ z → (w ∈ (y.portOf port).ideSecure ↔ w ∈ p.ideSecure)) ∧
          y.portOf port = { p with ideSecure := (y.portOf port).ideSecure }) ∧
        (streamSecure { p with ideSecure := z :: p.ideSecure.filter (· != z) } z.stream = true →
          Leads (.kSetGo port k z) s fun y => z.stream ∉ (y.portOf port).ideBroken ∧
            (∀ n, n ≠ z.stream → (n ∈ (y.portOf port).ideBroken ↔ n ∈ p.ideBroken)) ∧
            streamSecure (y.portOf port) z.stream = true)) ∧
      (∀ z : IdeSet, Leads (.kSetStop port k z) s fun y => Answered port s y ∧
        y.portOf port = { p with ideSecure := p.ideSecure.filter (· != z) } ∧ y.portOf (!port) = s.portOf (!port))) ∧
    (∀ n, p.up = true → streamSecure p n = true → Leads (.ideIntegrity port n) s fun y =>
      n ∈ (y.portOf port).ideBroken ∧ (∀ x ∈ (y.portOf port).ideSecure, x.stream ≠ n) ∧
      (∀ x ∈ (y.portOf port).ideKeys, x.stream ≠ n) ∧ portUp y port = false ∧ Reported srcSec .ideIntegrity 0 s y ∧
      SameMemory s y) ∧
    (∀ n, (p.up = false ∨ streamSecure p n = false) → exec (.ideIntegrity port n) s = .next s)

/-- The debug port (R443 to R445): the boundary commands; a challenge gives a fresh nonce, an unlock uses it up and
succeeds only on a good signature; three failures refuse challenges for 60 s; RELOCK and a cleared ALLOW lock it;
locked it reaches nothing, level 1 reads, level 2 also halts, steps, and accesses device memory. The model's own
choices in it: log entries 2 and 68. -/
def Obligations.DebugPort : Prop :=
  ∀ (a : Acc) (v : Word) (s t : State),
    exec .idcode s = .next (s.send (.debug (bytesOf 4 Config.idcode.toNat))) ∧ exec .bypass s = .next s ∧
    (∀ pins : List Bool, Leads (.samplePreload pins) s fun y => y.sec = { s.sec with boundary := pins } ∧
      y.sent = .debug (bitsToBytes pins) :: s.sent ∧ y = { s with sec := y.sec, sent := y.sent }) ∧
    (bupStep s ≤ 3 → exec .extest s = .next (s.send (.lands s.sec.boundary))) ∧ (3 < bupStep s → exec .extest s = .next s) ∧
    (∀ level, (level = 1 ∨ level = 2) → s.sec.lockedAt = none → Leads (.challenge level) s fun y =>
      y.sec = { s.sec with nonce := some (BitVec.ofNat 384 (Config.freeNat s.free), level) } ∧ y.free = s.free + 1 ∧
      y.sent = .debug (challengeBytes (BitVec.ofNat 384 (Config.freeNat s.free)) level) :: s.sent ∧
      y = { s with sec := y.sec, free := y.free, sent := y.sent }) ∧
    (∀ level c, s.sec.lockedAt = some c → exec (.challenge level) s = .next s) ∧
    (let failed (y : State) : Prop := y.sec.failures = s.sec.failures + 1 ∧ debugLevel y = debugLevel s ∧
        y.sec.lockedAt = (if s.sec.failures = 2 then some s.cyc else s.sec.lockedAt) ∧
        Reported srcDebug .debugDenied 0 s y ∧
        rf y .sec rSecDbgctrl 31 16 = min (rf s .sec rSecDbgctrl 31 16 + 1) 65535
     (s.sec.nonce = none → ∀ key signature, Leads (.unlock key signature) s failed) ∧
      (∀ key signature nonce level, s.sec.nonce = some (nonce, level) → Leads (.unlock key signature) s fun y =>
        y.sec.nonce = none ∧ SameMemory s y ∧
        if unlockOk s nonce level key signature then debugLevel y = level % 4 ∧ Reported srcDebug .debugUnlocked 0 s y
        else failed y)) ∧
    (∀ c, s.sec.lockedAt = some c → Leads .challengeLockoutEnd s fun y =>
      y.sec = { s.sec with lockedAt := none, failures := 0 } ∧ y.cyc = max s.cyc (c + 90000000000)) ∧
    (s.sec.lockedAt = none → exec .challengeLockoutEnd s = .next s) ∧
    (taken (.debugRelock a v) s = some t →
      ((valueOf a v).bit 63 = true ∨ (rg t .sec rSecDbgctrl).bit 0 = false → Leads (.debugRelock a v) s fun y =>
        debugLevel y = 0 ∧ y.sec = { s.sec with debugHeld := [] } ∧ y = { s with regs := y.regs, sec := y.sec }) ∧
      ((valueOf a v).bit 63 = false → (rg t .sec rSecDbgctrl).bit 0 = true → exec (.debugRelock a v) s = .next t)) ∧
    (debugLevel s = 0 → ∀ x, exec (.debugPortAccess x) s = .next s) ∧
    (1 ≤ debugLevel s →
      (∀ off b o, pf0Place (stewardPort s) off = some (b, o) → inFwWindow b o = false → off % 8 = 0 → o % 8 = 0 →
        exec (.debugPortAccess (.readRegister off 64)) s = .next (s.send (.debug (bytesOf 8 (readReg s b o).toNat))) ∧
        exec (.debugPortAccess (.readRegister off 32)) s =
          .next (s.send (.debug (bytesOf 4 ((readReg s b o).toNat % 2 ^ 32))))) ∧
      (Leads (.debugPortAccess .readTrace) s fun y => (∃ bs, y.sent = .debug bs :: s.sent ∧ bs.length = 64) ∧
        y = { s with free := s.free + 1, sent := y.sent })) ∧
    (debugLevel s = 1 → ∀ x, (∀ off bits, x ≠ .readRegister off bits) → x ≠ .readTrace → exec (.debugPortAccess x) s = .next s) ∧
    (debugLevel s = 2 →
      (Leads (.debugPortAccess .haltSaddle) s fun y => debugStopped y 0 = true ∧ y = { s with sec := y.sec }) ∧
      (s.sec.debugHeld.has 0 = true → Leads (.debugPortAccess .stepSaddle) s fun y => debugStopped y 0 = false) ∧
      (∀ (l : Fin 512) (c : Bool), Leads (.debugPortAccess (.haltCore l c)) s fun y =>
        debugStopped y (debugKey l (if c then 4 else 0)) = true ∧ y = { s with sec := y.sec }) ∧
      (∀ (l : Fin 512) (c : Bool), s.sec.debugHeld.has (debugKey l (if c then 4 else 0)) = true →
        Leads (.debugPortAccess (.stepCore l c)) s fun y => debugStopped y (debugKey l (if c then 4 else 0)) = false ∧
          y = { s with sec := y.sec }) ∧
      (∀ addr len, s.bup.handed = [] → (∀ x ∈ pieces addr len, ∃ k z, placeOf x.1 = .stack k z ∧ CleanBytes s k z x.2) →
        Leads (.debugPortAccess (.readMemory addr len)) s fun y => SameMemory s y ∧
          y.sent = .debug ((pieces addr len).flatMap fun x =>
            match placeOf x.1 with
            | .stack _ z => s.mem.readBytes z x.2
            | _ => []) :: s.sent) ∧
      (∀ addr data, s.bup.handed = [] → (∀ x ∈ pieces addr data.length, ∃ k z, placeOf x.1 = .stack k z) →
        Leads (.debugPortAccess (.writeMemory addr data)) s fun y =>
          y.mem = (pieces addr data.length).foldl (fun m x =>
            match placeOf x.1 with
            | .stack _ z => m.writeBytes z ((data.drop (x.1 - addr)).take x.2)
            | _ => m) s.mem))

/-! The cairn. -/

/-- The cairn meter (R446 to R453): once a minute a record with the energy of the nine rails, which a cairn with a
fault does not bill; its running total, number and history; its event log; what the reader port answers; what the
saddle keeps of a frame, and its alarm when no good record has come for 120 s. The model's own choices in it: log
entries 64 and 65. -/
def Obligations.CairnMeter : Prop :=
  ∀ (s : State),
    let c := s.cairn
    (∀ rom cal : Bool, c.powered = false → Leads (.cairnPowerup rom cal) s fun y =>
      y.cairn.powered = true ∧ y.cairn.first = true ∧ y.cairn.calFault = !cal ∧ y.cairn.romFault = !rom ∧
      y.cairn.eventCount = c.eventCount + 1 + (if cal then 0 else 1) + (if rom then 0 else 1) ∧
      y.cairn.cumul = c.cumul ∧ y.cairn.seq = c.seq) ∧
    (∀ x : CairnInterval, c.powered = true → Leads (.cairnRecord x) s fun y =>
      let faulty := c.calFault || c.romFault || !x.calOk
      let e := (List.range 9).foldl (fun n i => n + (if faulty then 0 else (x.raile.getD i 0) % 2 ^ 32)) 0
      y.cairn.cumul = (c.cumul + e) % 2 ^ 64 ∧ y.cairn.seq = (c.seq + 1) % 2 ^ 32 ∧
      y.cairn.lastRecord = c.lastRecord + 60000 ∧ y.cairn.ctime = c.lastRecord + 60000 ∧ y.cairn.first = false ∧
      y.cairn.overrange = false ∧ y.cairn.dip = false ∧ y.cairn.newEvents = false ∧
      (∃ r rest, y.cairn.history = r :: rest ∧ r.seq = c.seq % 2 ^ 32 ∧ r.cumul = y.cairn.cumul ∧ r.interval = e ∧
        r.intms = 60000 ∧ rest = c.history.take 255) ∧
      (∃ bs, y.sent = .reader 0x80 bs :: s.sent ∧ bs.length = 192) ∧ SameMemory s y) ∧
    (∀ ok : Bool, c.powered = true → Leads (.cairnRomCheck ok) s fun y =>
      y.cairn.romFault = (c.romFault || !ok) ∧ y.cairn.eventCount = c.eventCount + (if ok then 0 else 1) ∧
      y.cairn.cumul = c.cumul) ∧
    (c.powered = true → Leads .cairnPowerFail s fun y => y.cairn.powered = false ∧ y.cairn.eventCount = c.eventCount + 1 ∧
      y.cairn.cumul = c.cumul ∧ y.cairn.seq = c.seq ∧ y.cairn.history = c.history) ∧
    (∀ (rail : Fin 9) (data : BitVec 128), c.powered = true →
      (Leads (.cairnDipDetect rail data) s fun y => y.cairn.dip = true ∧ y.cairn.newEvents = true ∧
        y.cairn.eventCount = c.eventCount + 1 ∧ y.cairn.cumul = c.cumul) ∧
      (Leads (.currentBeyondSensorRange rail data) s fun y => y.cairn.overrange = true ∧ y.cairn.newEvents = true ∧
        y.cairn.eventCount = c.eventCount + 1 ∧ y.cairn.cumul = c.cumul) ∧
      (Leads (.cairnSensorFault data) s fun y => y.cairn.newEvents = true ∧
        y.cairn.eventCount = c.eventCount + 1 ∧ y.cairn.cumul = c.cumul)) ∧
    (c.powered = true →
      (Leads .ident s fun y => y.cairn = c ∧ ∃ bs, y.sent = .reader 0x81 bs :: s.sent ∧ bs.length = 134 ∧
        bs.take 16 = bytesOf 8 Config.cairnSerial.toNat ++ bytesOf 8 Config.serial.toNat ∧
        bs.drop 130 = bytesOf 4 c.eventCount) ∧
      (∀ seq : W32, Leads (.recall seq) s fun y => y.cairn = c ∧
        match c.history.find? fun r => r.seq == seq.toNat with
        | some r => y.sent = .reader 0x82 (cairnSigned (recordBody 2 (List.replicate 9 0) r)) :: s.sent
        | none => y.sent = .reader 0x8F [2] :: s.sent) ∧
      (∀ n : W32, Leads (.readerEvent n) s fun y => y.cairn = c ∧
        if n.toNat < c.eventCount ∧ c.eventCount ≤ n.toNat + 128 then
          y.sent = .reader 0x83 (cairnSigned (SMap.get [] c.events (n.toNat % 128))) :: s.sent
        else y.sent = .reader 0x8F [2] :: s.sent) ∧
      (∀ (b : Byte) (wrong : Bool), (b ≠ 1 → b ≠ 2 → b ≠ 3 →
          exec (.readerUnknownType b wrong) s = .next (s.send (.reader 0x8F [1]))) ∧
        ((b = 1 ∨ b = 2 ∨ b = 3) → exec (.readerUnknownType b true) s = .next (s.send (.reader 0x8F [3]))))) ∧
    (∀ (bs : List Byte) (ok : Bool), bupPast s 1 = true → resetting s .device = false → bs.length = 192 →
      (ok = false → Leads (.cairnFrameReceive bs ok) s fun y =>
        rf y .crn rCrnStat 31 16 = min (rf s .crn rCrnStat 31 16 + 1) 65535 ∧ y = { s with regs := y.regs }) ∧
      (ok = true → Leads (.cairnFrameReceive bs ok) s fun y =>
        let stamped := bs.take 16 ++ bytesOf 8 s.nowNs ++ bs.drop 24
        let good := Config.ecdsaVerify (bytesOf 96 Config.cairnKey.toNat) 
          (stamped.take 16 ++ bytesOf 8 0 ++ (stamped.take 96).drop 24) (stamped.drop 96)
        (∀ w, w < 24 → rg y .crn (rCrnRecw w) = BitVec.ofNat 64 (natOfBytes ((stamped.drop (8 * w)).take 8))) ∧
        rf y .crn rCrnStat 63 32 = natOfBytes ((bs.drop 4).take 4) ∧ (rg y .crn rCrnStat).bit 0 = true ∧
        (rg y .crn rCrnStat).bit 1 = good ∧ (good = true → (rg y .crn rCrnStat).bit 2 = false ∧ y.sec.goodRecordAt = s.cyc) ∧
        y.cairn = c ∧ SameMemory s y)) ∧
    (bupPast s 1 = true → resetting s .device = false → (rg s .crn rCrnStat).bit 2 = false → Leads .cairnSilent s fun y =>
      (rg y .crn rCrnStat).bit 2 = true ∧ y.cyc = max s.cyc (s.sec.goodRecordAt + 180000000000) ∧
      Reported srcCairn .cairnSilent 0 s y ∧ y.cairn = c ∧ SameMemory s y)

/-! The device as a whole. -/

/-- The commands by which the cairn measures, records and is asked (R446 to R453); every other one is the host's, the
device's or the package's. -/
def isCairns : Instr → Bool
  | .cairnPowerup .. | .cairnRecord .. | .cairnRomCheck .. | .cairnPowerFail | .cairnDipDetect .. | .ident | .recall ..
  | .readerEvent .. | .readerUnknownType .. | .currentBeyondSensorRange .. | .cairnSensorFault .. => true
  | _ => false

/-- Nothing on the device but the meter itself changes the meter's total, time, records or events, whatever a host, a
program, a fault, a reset or a loss of VGLOW does (R25, R447). -/
def Obligations.CairnIsolation : Prop :=
  ∀ (c : Instr) (s t : State), isCairns c = false → exec c s = .next t → t.cairn = s.cairn

/-- Every memory keeps its canonical form: a step from a state whose memories have it leaves one whose memories have it. -/
def Obligations.MemoriesCanonical : Prop :=
  ∀ s t : State, s.MemWf = true → step s = .next t → t.MemWf = true

/-- Burnt fuses stay burnt (R437): the version floor never falls and a revoked slot stays revoked, on every step, a device
reset and a loss of VGLOW among them. -/
def Obligations.FusesStayBurnt : Prop :=
  ∀ s t : State, step s = .next t →
    minSvn s ≤ minSvn t ∧ ∀ k, slotRevoked s k = true → slotRevoked t k = true

/-- No cluster and no counter group belongs to two partitions (R19, R20, R325), and the commits that wait are those of ports
and partitions. -/
def Exclusive (s : State) : Prop :=
  (∀ k ∈ s.bup.commitBusy, k < 34) ∧
  ∀ p q, p < 32 → q < 32 → p ≠ q → partValid s p = true → partValid s q = true →
    (∀ r, r < 32 → ¬ ((rgEff s (.part p) rPartComp).bit r = true ∧ (rgEff s (.part q) rPartComp).bit r = true)) ∧
    (∀ g, g < 64 → ¬ ((rgEff s (.part p) rPartHvcg).bit g = true ∧ (rgEff s (.part q) rPartHvcg).bit g = true))

/-- Partitions stay apart: every step from a state in which no cluster and no counter group belongs to two partitions leaves
one of which the same holds, whatever is staged and committed (R19, R20, R325). -/
def Obligations.PartitionsStayApart : Prop := ∀ s t : State, Exclusive s → step s = .next t → Exclusive t

/-- The one thing that stops the machine is a fault of the saddle clock on its standby (R387). -/
def Obligations.OnlySaddleClockStops : Prop :=
  ∀ (c : Instr) (s : State), (∀ t, exec c s ≠ .next t) →
    exec c s = .fault .saddleClockLost ∧ ∃ f, c = .clockMonitor f ∧ f.saddle = true ∧ (rg s .clk rClkState).bit 3 = true

/-- The state after reset: nothing waits; the registers whose reset values the spec gives read them; no partition exists, no
memory lists anything, every memory is canonical; the stewardship figures of HIF_STEWCFG (2 s and 250 ms), all vectors
enabled, TILE_MX_CAP and the rest as the register tables give them. What the spec gives no reset value for
reads 0, which is the model's choice (log entries 5 and 6). -/
def Obligations.ResetState : Prop :=
  State.reset.pending = [] ∧ State.reset.MemWf = true ∧ Exclusive State.reset ∧
    (∀ b o d, regDesc b o = some d → rg State.reset b o = BitVec.ofNat 64 d.reset ∧ rgEff State.reset b o = BitVec.ofNat 64 d.reset) ∧
    (∀ p, p < 32 → partValid State.reset p = false) ∧
    (∀ port, rf State.reset (.hif port) rHifStewcfg 15 0 = 2000 ∧ rf State.reset (.hif port) rHifStewcfg 47 32 = 250 ∧
      rf State.reset (.hif port) rHifVecen 9 0 = 0x3FF) ∧
    bupStep State.reset = 0 ∧ (∀ i a, (memOf State.reset i).read a = 0) ∧
    (∀ k, holderValue State.reset k = 0 ∧ holderSat State.reset k = false) ∧ State.reset.glow.slots = [] ∧
    State.reset.time.t = 0 ∧ State.reset.bup.vglow = false

/-- Alori words (R116, R117, Tables ALR-1a to ALR-13): the decoder reads from the word that the encoder writes for an
instruction the instruction itself, with every operand, and every word that it reads is the word of what it reads. -/
def Obligations.AloriRoundTrip : Prop :=
  ∀ (c : Instr) (u : Agent) (w : BitVec 32), encodeAlori c = some (u, w) ↔ decodeAlori u w = some c
end

