-- ==== Sys2Proof/Laws/Dispatch.lean ====
section
/-! SUPPORT. Each arm of `exec`, and the step with a command in front. -/
namespace Sys2Proof.Machine

theorem exec_add (u : Agent) (f : FmtA) (s : State) : exec (.add u f) s = execAdd u f s := rfl
theorem exec_sub (u : Agent) (f : FmtA) (s : State) : exec (.sub u f) s = execSub u f s := rfl
theorem exec_and (u : Agent) (f : FmtA) (s : State) : exec (.and u f) s = execAnd u f s := rfl
theorem exec_or (u : Agent) (f : FmtA) (s : State) : exec (.or u f) s = execOr u f s := rfl
theorem exec_xor (u : Agent) (f : FmtA) (s : State) : exec (.xor u f) s = execXor u f s := rfl
theorem exec_sll (u : Agent) (f : FmtA) (s : State) : exec (.sll u f) s = execSll u f s := rfl
theorem exec_srl (u : Agent) (f : FmtA) (s : State) : exec (.srl u f) s = execSrl u f s := rfl
theorem exec_sra (u : Agent) (f : FmtA) (s : State) : exec (.sra u f) s = execSra u f s := rfl
theorem exec_min (u : Agent) (f : FmtA) (s : State) : exec (.min u f) s = execMin u f s := rfl
theorem exec_minu (u : Agent) (f : FmtA) (s : State) : exec (.minu u f) s = execMinu u f s := rfl
theorem exec_max (u : Agent) (f : FmtA) (s : State) : exec (.max u f) s = execMax u f s := rfl
theorem exec_maxu (u : Agent) (f : FmtA) (s : State) : exec (.maxu u f) s = execMaxu u f s := rfl
theorem exec_cmpeq (u : Agent) (f : FmtA) (s : State) : exec (.cmpeq u f) s = execCmpeq u f s := rfl
theorem exec_cmplt (u : Agent) (f : FmtA) (s : State) : exec (.cmplt u f) s = execCmplt u f s := rfl
theorem exec_cmpltu (u : Agent) (f : FmtA) (s : State) : exec (.cmpltu u f) s = execCmpltu u f s := rfl
theorem exec_mul (u : Agent) (f : FmtA) (s : State) : exec (.mul u f) s = execMul u f s := rfl
theorem exec_mulh (u : Agent) (f : FmtA) (s : State) : exec (.mulh u f) s = execMulh u f s := rfl
theorem exec_mulhu (u : Agent) (f : FmtA) (s : State) : exec (.mulhu u f) s = execMulhu u f s := rfl
theorem exec_clz (u : Agent) (f : FmtA) (s : State) : exec (.clz u f) s = execClz u f s := rfl
theorem exec_popc (u : Agent) (f : FmtA) (s : State) : exec (.popc u f) s = execPopc u f s := rfl
theorem exec_addi (u : Agent) (f : FmtI) (s : State) : exec (.addi u f) s = execAddi u f s := rfl
theorem exec_andi (u : Agent) (f : FmtI) (s : State) : exec (.andi u f) s = execAndi u f s := rfl
theorem exec_ori (u : Agent) (f : FmtI) (s : State) : exec (.ori u f) s = execOri u f s := rfl
theorem exec_xori (u : Agent) (f : FmtI) (s : State) : exec (.xori u f) s = execXori u f s := rfl
theorem exec_shi (u : Agent) (f : FmtI) (s : State) : exec (.shi u f) s = execShi u f s := rfl
theorem exec_movz (u : Agent) (f : FmtI) (s : State) : exec (.movz u f) s = execMovz u f s := rfl
theorem exec_movk (u : Agent) (f : FmtI) (s : State) : exec (.movk u f) s = execMovk u f s := rfl
theorem exec_beq (u : Agent) (f : FmtB) (s : State) : exec (.beq u f) s = execBeq u f s := rfl
theorem exec_bne (u : Agent) (f : FmtB) (s : State) : exec (.bne u f) s = execBne u f s := rfl
theorem exec_blt (u : Agent) (f : FmtB) (s : State) : exec (.blt u f) s = execBlt u f s := rfl
theorem exec_bge (u : Agent) (f : FmtB) (s : State) : exec (.bge u f) s = execBge u f s := rfl
theorem exec_bltu (u : Agent) (f : FmtB) (s : State) : exec (.bltu u f) s = execBltu u f s := rfl
theorem exec_bgeu (u : Agent) (f : FmtB) (s : State) : exec (.bgeu u f) s = execBgeu u f s := rfl
theorem exec_jal (u : Agent) (f : FmtJ) (s : State) : exec (.jal u f) s = execJal u f s := rfl
theorem exec_jalr (u : Agent) (f : FmtI) (s : State) : exec (.jalr u f) s = execJalr u f s := rfl
theorem exec_ld (u : Agent) (f : FmtM) (s : State) : exec (.ld u f) s = execLd u f s := rfl
theorem exec_lds (u : Agent) (f : FmtM) (s : State) : exec (.lds u f) s = execLds u f s := rfl
theorem exec_st (u : Agent) (f : FmtM) (s : State) : exec (.st u f) s = execSt u f s := rfl
theorem exec_vld (u : Agent) (f : FmtMV) (s : State) : exec (.vld u f) s = execVld u f s := rfl
theorem exec_vst (u : Agent) (f : FmtMV) (s : State) : exec (.vst u f) s = execVst u f s := rfl
theorem exec_vadd (u : Agent) (f : FmtV) (s : State) : exec (.vadd u f) s = execVadd u f s := rfl
theorem exec_vsub (u : Agent) (f : FmtV) (s : State) : exec (.vsub u f) s = execVsub u f s := rfl
theorem exec_vmul (u : Agent) (f : FmtV) (s : State) : exec (.vmul u f) s = execVmul u f s := rfl
theorem exec_vfma (u : Agent) (f : FmtV) (s : State) : exec (.vfma u f) s = execVfma u f s := rfl
theorem exec_vmax (u : Agent) (f : FmtV) (s : State) : exec (.vmax u f) s = execVmax u f s := rfl
theorem exec_vmin (u : Agent) (f : FmtV) (s : State) : exec (.vmin u f) s = execVmin u f s := rfl
theorem exec_vand (u : Agent) (f : FmtV) (s : State) : exec (.vand u f) s = execVand u f s := rfl
theorem exec_vor (u : Agent) (f : FmtV) (s : State) : exec (.vor u f) s = execVor u f s := rfl
theorem exec_vxor (u : Agent) (f : FmtV) (s : State) : exec (.vxor u f) s = execVxor u f s := rfl
theorem exec_vsll (u : Agent) (f : FmtV) (s : State) : exec (.vsll u f) s = execVsll u f s := rfl
theorem exec_vsra (u : Agent) (f : FmtV) (s : State) : exec (.vsra u f) s = execVsra u f s := rfl
theorem exec_vcmpeq (u : Agent) (f : FmtV) (s : State) : exec (.vcmpeq u f) s = execVcmpeq u f s := rfl
theorem exec_vcmplt (u : Agent) (f : FmtV) (s : State) : exec (.vcmplt u f) s = execVcmplt u f s := rfl
theorem exec_vcmple (u : Agent) (f : FmtV) (s : State) : exec (.vcmple u f) s = execVcmple u f s := rfl
theorem exec_vsel (u : Agent) (f : FmtV) (s : State) : exec (.vsel u f) s = execVsel u f s := rfl
theorem exec_vbcast (u : Agent) (f : FmtV) (s : State) : exec (.vbcast u f) s = execVbcast u f s := rfl
theorem exec_vextr (u : Agent) (f : FmtV) (s : State) : exec (.vextr u f) s = execVextr u f s := rfl
theorem exec_vins (u : Agent) (f : FmtV) (s : State) : exec (.vins u f) s = execVins u f s := rfl
theorem exec_vperm (u : Agent) (f : FmtV) (s : State) : exec (.vperm u f) s = execVperm u f s := rfl
theorem exec_vmovp (u : Agent) (f : FmtV) (s : State) : exec (.vmovp u f) s = execVmovp u f s := rfl
theorem exec_vmovg (u : Agent) (f : FmtV) (s : State) : exec (.vmovg u f) s = execVmovg u f s := rfl
theorem exec_vabs (u : Agent) (f : FmtV) (s : State) : exec (.vabs u f) s = execVabs u f s := rfl
theorem exec_vneg (u : Agent) (f : FmtV) (s : State) : exec (.vneg u f) s = execVneg u f s := rfl
theorem exec_vgetexp (u : Agent) (f : FmtV) (s : State) : exec (.vgetexp u f) s = execVgetexp u f s := rfl
theorem exec_vscale (u : Agent) (f : FmtV) (s : State) : exec (.vscale u f) s = execVscale u f s := rfl
theorem exec_vmov (u : Agent) (f : FmtV) (s : State) : exec (.vmov u f) s = execVmov u f s := rfl
theorem exec_vcvt (u : Agent) (f : FmtV) (s : State) : exec (.vcvt u f) s = execVcvt u f s := rfl
theorem exec_exp2 (u : Agent) (f : FmtV) (s : State) : exec (.exp2 u f) s = execExp2 u f s := rfl
theorem exec_rcp (u : Agent) (f : FmtV) (s : State) : exec (.rcp u f) s = execRcp u f s := rfl
theorem exec_rsqrt (u : Agent) (f : FmtV) (s : State) : exec (.rsqrt u f) s = execRsqrt u f s := rfl
theorem exec_vredSum (u : Agent) (f : FmtV) (s : State) : exec (.vredSum u f) s = execVredSum u f s := rfl
theorem exec_vredMax (u : Agent) (f : FmtV) (s : State) : exec (.vredMax u f) s = execVredMax u f s := rfl
theorem exec_vredMin (u : Agent) (f : FmtV) (s : State) : exec (.vredMin u f) s = execVredMin u f s := rfl
theorem exec_vredAmax (u : Agent) (f : FmtV) (s : State) : exec (.vredAmax u f) s = execVredAmax u f s := rfl
theorem exec_vdot (u : Agent) (f : FmtV) (s : State) : exec (.vdot u f) s = execVdot u f s := rfl
theorem exec_cadd (u : Agent) (f : FmtQ) (s : State) : exec (.cadd u f) s = execCadd u f s := rfl
theorem exec_cwait (u : Agent) (f : FmtQ) (s : State) : exec (.cwait u f) s = execCwait u f s := rfl
theorem exec_crd (u : Agent) (f : FmtQ) (s : State) : exec (.crd u f) s = execCrd u f s := rfl
theorem exec_crdf (u : Agent) (f : FmtQ) (s : State) : exec (.crdf u f) s = execCrdf u f s := rfl
theorem exec_crdh (u : Agent) (f : FmtQ) (s : State) : exec (.crdh u f) s = execCrdh u f s := rfl
theorem exec_csigl (u : Agent) (f : FmtI) (s : State) : exec (.csigl u f) s = execCsigl u f s := rfl
theorem exec_cwaitl (u : Agent) (f : FmtI) (s : State) : exec (.cwaitl u f) s = execCwaitl u f s := rfl
theorem exec_cgbegin (u : Agent) (f : FmtQ) (s : State) : exec (.cgbegin u f) s = execCgbegin u f s := rfl
theorem exec_cgcommit (u : Agent) (f : FmtQ) (s : State) : exec (.cgcommit u f) s = execCgcommit u f s := rfl
theorem exec_cgabort (u : Agent) (f : FmtQ) (s : State) : exec (.cgabort u f) s = execCgabort u f s := rfl
theorem exec_cgstat (u : Agent) (f : FmtQ) (s : State) : exec (.cgstat u f) s = execCgstat u f s := rfl
theorem exec_tpin (u : Agent) (f : FmtQ) (s : State) : exec (.tpin u f) s = execTpin u f s := rfl
theorem exec_twr (u : Agent) (f : FmtQ) (s : State) : exec (.twr u f) s = execTwr u f s := rfl
theorem exec_kvapp (u : Agent) (f : FmtQ) (s : State) : exec (.kvapp u f) s = execKvapp u f s := rfl
theorem exec_qpush (u : Agent) (f : FmtQ) (s : State) : exec (.qpush u f) s = execQpush u f s := rfl
theorem exec_qpushn (u : Agent) (f : FmtQ) (s : State) : exec (.qpushn u f) s = execQpushn u f s := rfl
theorem exec_qflush (u : Agent) (f : FmtQ) (s : State) : exec (.qflush u f) s = execQflush u f s := rfl
theorem exec_qstat (u : Agent) (f : FmtQ) (s : State) : exec (.qstat u f) s = execQstat u f s := rfl
theorem exec_nop (u : Agent) (f : FmtA) (s : State) : exec (.nop u f) s = execNop u f s := rfl
theorem exec_endProg (u : Agent) (f : FmtA) (s : State) : exec (.endProg u f) s = execEndProg u f s := rfl
theorem exec_rdstep (u : Agent) (f : FmtA) (s : State) : exec (.rdstep u f) s = execRdstep u f s := rfl
theorem exec_rdcyc (u : Agent) (f : FmtA) (s : State) : exec (.rdcyc u f) s = execRdcyc u f s := rfl
theorem exec_rdid (u : Agent) (f : FmtA) (s : State) : exec (.rdid u f) s = execRdid u f s := rfl
theorem exec_queueHead (t : Fin 512) (q : Fin 3) (s : State) : exec (.queueHead t q) s = execQueueHead t q s := rfl
theorem exec_mxload (t : Fin 512) (s : State) : exec (.mxload t) s = execMxload t s := rfl
theorem exec_mxloadDone (t : Fin 512) (s : State) : exec (.mxloadDone t) s = execMxloadDone t s := rfl
theorem exec_mxmul (t : Fin 512) (s : State) : exec (.mxmul t) s = execMxmul t s := rfl
theorem exec_mxmulDone (t : Fin 512) (s : State) : exec (.mxmulDone t) s = execMxmulDone t s := rfl
theorem exec_mxdrain (t : Fin 512) (s : State) : exec (.mxdrain t) s = execMxdrain t s := rfl
theorem exec_mxdrainDone (t : Fin 512) (s : State) : exec (.mxdrainDone t) s = execMxdrainDone t s := rfl
theorem exec_mxkat (t : Fin 512) (s : State) : exec (.mxkat t) s = execMxkat t s := rfl
theorem exec_mxkatDone (t : Fin 512) (s : State) : exec (.mxkatDone t) s = execMxkatDone t s := rfl
theorem exec_mvcopy (t : Fin 512) (s : State) : exec (.mvcopy t) s = execMvcopy t s := rfl
theorem exec_mvcopyDone (t : Fin 512) (j : Nat) (s : State) : exec (.mvcopyDone t j) s = execMvcopyDone t j s := rfl
theorem exec_mvtran (t : Fin 512) (s : State) : exec (.mvtran t) s = execMvtran t s := rfl
theorem exec_mvtranDone (t : Fin 512) (j : Nat) (s : State) : exec (.mvtranDone t j) s = execMvtranDone t j s := rfl
theorem exec_fsend (t : Fin 512) (s : State) : exec (.fsend t) s = execFsend t s := rfl
theorem exec_fsendDone (t : Fin 512) (s : State) : exec (.fsendDone t) s = execFsendDone t s := rfl
theorem exec_signalClause (t : Fin 512) (q : Fin 3) (s : State) : exec (.signalClause t q) s = execSignalClause t q s := rfl
theorem exec_counterAdd (c : Cnt) (s : State) : exec (.counterAdd c) s = execCounterAdd c s := rfl
theorem exec_contextWake (t : Fin 512) (w : Waiter) (s : State) : exec (.contextWake t w) s = execContextWake t w s := rfl
theorem exec_saddleWake (t : Fin 512) (w : Waiter) (s : State) : exec (.saddleWake t w) s = execSaddleWake t w s := rfl
theorem exec_queueSlotReady (t : Fin 512) (n : Fin 8) (s : State) : exec (.queueSlotReady t n) s = execQueueSlotReady t n s := rfl
theorem exec_accBankReady (t : Fin 512) (n : Fin 8) (s : State) : exec (.accBankReady t n) s = execAccBankReady t n s := rfl
theorem exec_commitPoint (t : Fin 512) (s : State) : exec (.commitPoint t) s = execCommitPoint t s := rfl
theorem exec_commitDone (t : Fin 512) (s : State) : exec (.commitDone t) s = execCommitDone t s := rfl
theorem exec_tpinDone (t : Fin 512) (s : State) : exec (.tpinDone t) s = execTpinDone t s := rfl
theorem exec_walkDone (j : Nat) (s : State) : exec (.walkDone j) s = execWalkDone j s := rfl
theorem exec_xltinv (a : Acc) (p : Fin 32) (v : Word) (s : State) : exec (.xltinv a p v) s = execXltinv a p v s := rfl
theorem exec_xltinvDone (p : Fin 32) (s : State) : exec (.xltinvDone p) s = execXltinvDone p s := rfl
theorem exec_loadTrv (a : Acc) (p : Fin 32) (v : Word) (s : State) : exec (.loadTrv a p v) s = execLoadTrv a p v s := rfl
theorem exec_loadDone (p : Fin 32) (s : State) : exec (.loadDone p) s = execLoadDone p s := rfl
theorem exec_runTrv (a : Acc) (p : Fin 32) (v : Word) (s : State) : exec (.runTrv a p v) s = execRunTrv a p v s := rfl
theorem exec_stopTrv (a : Acc) (p : Fin 32) (v : Word) (s : State) : exec (.stopTrv a p v) s = execStopTrv a p v s := rfl
theorem exec_stopDone (p : Fin 32) (s : State) : exec (.stopDone p) s = execStopDone p s := rfl
theorem exec_unloadTrv (a : Acc) (p : Fin 32) (v : Word) (s : State) : exec (.unloadTrv a p v) s = execUnloadTrv a p v s := rfl
theorem exec_partRunEpoch (a : Acc) (p : Fin 32) (v : Word) (s : State) : exec (.partRunEpoch a p v) s = execPartRunEpoch a p v s := rfl
theorem exec_stepStart (p : Fin 32) (s : State) : exec (.stepStart p) s = execStepStart p s := rfl
theorem exec_stepEnd (p : Fin 32) (s : State) : exec (.stepEnd p) s = execStepEnd p s := rfl
theorem exec_traverseEnd (p : Fin 32) (s : State) : exec (.traverseEnd p) s = execTraverseEnd p s := rfl
theorem exec_deadlineCheck (p : Fin 32) (j : Nat) (s : State) : exec (.deadlineCheck p j) s = execDeadlineCheck p j s := rfl
theorem exec_epochMark (up : Bool) (s : State) : exec (.epochMark up) s = execEpochMark up s := rfl
theorem exec_diagnosisDone (h : Fin 544) (r : DiagFinding) (s : State) : exec (.diagnosisDone h r) s = execDiagnosisDone h r s := rfl
theorem exec_diag (a : Acc) (h : Fin 544) (v : Word) (s : State) : exec (.diag a h v) s = execDiag a h v s := rfl
theorem exec_katOverdue (h : Fin 544) (s : State) : exec (.katOverdue h) s = execKatOverdue h s := rfl
theorem exec_ctxRestart (a : Acc) (h : Fin 544) (v : Word) (s : State) : exec (.ctxRestart a h v) s = execCtxRestart a h v s := rfl
theorem exec_flush (a : Acc) (h : Fin 544) (v : Word) (s : State) : exec (.flush a h v) s = execFlush a h v s := rfl
theorem exec_sliceRefreshSlot (h : Fin 544) (s : State) : exec (.sliceRefreshSlot h) s = execSliceRefreshSlot h s := rfl
theorem exec_stackRequest (r : StackReq) (s : State) : exec (.stackRequest r) s = execStackRequest r s := rfl
theorem exec_stackAccessDone (j : Nat) (s : State) : exec (.stackAccessDone j) s = execStackAccessDone j s := rfl
theorem exec_stackRefresh (k : Fin 8) (channel : Nat) (bank : Nat) (s : State) : exec (.stackRefresh k channel bank) s = execStackRefresh k channel bank s := rfl
theorem exec_fillDone (f : FillTarget) (s : State) : exec (.fillDone f) s = execFillDone f s := rfl
theorem exec_slScrubStart (a : Acc) (h : Fin 544) (v : Word) (s : State) : exec (.slScrubStart a h v) s = execSlScrubStart a h v s := rfl
theorem exec_slScrubStop (a : Acc) (h : Fin 544) (v : Word) (s : State) : exec (.slScrubStop a h v) s = execSlScrubStop a h v s := rfl
theorem exec_memcScrubStart (a : Acc) (k : Fin 8) (v : Word) (s : State) : exec (.memcScrubStart a k v) s = execMemcScrubStart a k v s := rfl
theorem exec_memcScrubStop (a : Acc) (k : Fin 8) (v : Word) (s : State) : exec (.memcScrubStop a k v) s = execMemcScrubStop a k v s := rfl
theorem exec_scrubPassDone (x : ScrubTarget) (s : State) : exec (.scrubPassDone x) s = execScrubPassDone x s := rfl
theorem exec_scrubPeriod (x : ScrubTarget) (s : State) : exec (.scrubPeriod x) s = execScrubPeriod x s := rfl
theorem exec_slRowret (a : Acc) (h : Fin 544) (v : Word) (s : State) : exec (.slRowret a h v) s = execSlRowret a h v s := rfl
theorem exec_slRowretDone (h : Fin 544) (s : State) : exec (.slRowretDone h) s = execSlRowretDone h s := rfl
theorem exec_bankret (a : Acc) (k : Fin 8) (v : Word) (s : State) : exec (.bankret a k v) s = execBankret a k v s := rfl
theorem exec_bankretDone (k : Fin 8) (s : State) : exec (.bankretDone k) s = execBankretDone k s := rfl
theorem exec_tileInjArm (a : Acc) (h : Fin 544) (v : Word) (s : State) : exec (.tileInjArm a h v) s = execTileInjArm a h v s := rfl
theorem exec_tileInjRawrd (a : Acc) (h : Fin 544) (v : Word) (s : State) : exec (.tileInjRawrd a h v) s = execTileInjRawrd a h v s := rfl
theorem exec_memcInjArm (a : Acc) (k : Fin 8) (v : Word) (s : State) : exec (.memcInjArm a k v) s = execMemcInjArm a k v s := rfl
theorem exec_memcInjRawrd (a : Acc) (k : Fin 8) (v : Word) (s : State) : exec (.memcInjRawrd a k v) s = execMemcInjRawrd a k v s := rfl
theorem exec_marginStart (a : Acc) (k : Fin 8) (v : Word) (s : State) : exec (.marginStart a k v) s = execMarginStart a k v s := rfl
theorem exec_marginDone (k : Fin 8) (m : List Margin) (s : State) : exec (.marginDone k m) s = execMarginDone k m s := rfl
theorem exec_dripLeak (d : DripDomain) (s : State) : exec (.dripLeak d) s = execDripLeak d s := rfl
theorem exec_slclr (a : Acc) (h : Fin 544) (v : Word) (s : State) : exec (.slclr a h v) s = execSlclr a h v s := rfl
theorem exec_tsclr (a : Acc) (h : Fin 544) (v : Word) (s : State) : exec (.tsclr a h v) s = execTsclr a h v s := rfl
theorem exec_memcDripClr (a : Acc) (k : Fin 8) (c : Fin 32) (v : Word) (s : State) : exec (.memcDripClr a k c v) s = execMemcDripClr a k c v s := rfl
theorem exec_grtCdripClr (a : Acc) (k : Fin 512) (v : Word) (s : State) : exec (.grtCdripClr a k v) s = execGrtCdripClr a k v s := rfl
theorem exec_dripcfgWrite (a : Acc) (b : DripBlock) (v : Word) (s : State) : exec (.dripcfgWrite a b v) s = execDripcfgWrite a b v s := rfl
theorem exec_grottoLaunch (k : Fin 512) (s : State) : exec (.grottoLaunch k) s = execGrottoLaunch k s := rfl
theorem exec_grottoWake (k : Fin 512) (s : State) : exec (.grottoWake k) s = execGrottoWake k s := rfl
theorem exec_launch (a : Acc) (k : Fin 512) (v : Word) (s : State) : exec (.launch a k v) s = execLaunch a k v s := rfl
theorem exec_grtRestart (a : Acc) (k : Fin 512) (v : Word) (s : State) : exec (.grtRestart a k v) s = execGrtRestart a k v s := rfl
theorem exec_grtMode (a : Acc) (k : Fin 4) (v : Word) (s : State) : exec (.grtMode a k v) s = execGrtMode a k v s := rfl
theorem exec_peakclr (a : Acc) (k : Fin 4) (v : Word) (s : State) : exec (.peakclr a k v) s = execPeakclr a k v s := rfl
theorem exec_grottoRefreshDue (k : Fin 512) (s : State) : exec (.grottoRefreshDue k) s = execGrottoRefreshDue k s := rfl
theorem exec_grottoPause (k : Fin 512) (s : State) : exec (.grottoPause k) s = execGrottoPause k s := rfl
theorem exec_grottoRefreshOpDone (k : Fin 512) (s : State) : exec (.grottoRefreshOpDone k) s = execGrottoRefreshOpDone k s := rfl
theorem exec_ordinaryAccessService (k : Fin 512) (s : State) : exec (.ordinaryAccessService k) s = execOrdinaryAccessService k s := rfl
theorem exec_scrubWaitExpiry (k : Fin 512) (s : State) : exec (.scrubWaitExpiry k) s = execScrubWaitExpiry k s := rfl
theorem exec_linkEn (a : Acc) (l : Fin 48) (v : Word) (s : State) : exec (.linkEn a l v) s = execLinkEn a l v s := rfl
theorem exec_linkUp (l : Fin 48) (r : LinkTraining) (s : State) : exec (.linkUp l r) s = execLinkUp l r s := rfl
theorem exec_retrain (a : Acc) (l : Fin 48) (v : Word) (s : State) : exec (.retrain a l v) s = execRetrain a l v s := rfl
theorem exec_relock (a : Acc) (l : Fin 48) (v : Word) (s : State) : exec (.relock a l v) s = execRelock a l v s := rfl
theorem exec_frameReceive (l : Fin 48) (f : Frame) (s : State) : exec (.frameReceive l f) s = execFrameReceive l f s := rfl
theorem exec_replay (l : Fin 48) (s : State) : exec (.replay l) s = execReplay l s := rfl
theorem exec_laneFail (l : Fin 48) (lanes : BitVec 4) (s : State) : exec (.laneFail l lanes) s = execLaneFail l lanes s := rfl
theorem exec_linkRealigned (l : Fin 48) (peerWidth : Nat) (s : State) : exec (.linkRealigned l peerWidth) s = execLinkRealigned l peerWidth s := rfl
theorem exec_echo (l : Fin 48) (e : EchoData) (s : State) : exec (.echo l e) s = execEcho l e s := rfl
theorem exec_timeHoldover (s : State) : exec .timeHoldover s = execTimeHoldover s := rfl
theorem exec_ptmRequest (master : Option PtmReply) (s : State) : exec (.ptmRequest master) s = execPtmRequest master s := rfl
theorem exec_ppsInEdge (s : State) : exec .ppsInEdge s = execPpsInEdge s := rfl
theorem exec_ppsOutEdge (s : State) : exec .ppsOutEdge s = execPpsOutEdge s := rfl
theorem exec_timeSet (a : Acc) (v : Word) (s : State) : exec (.timeSet a v) s = execTimeSet a v s := rfl
theorem exec_timeE0 (a : Acc) (v : Word) (s : State) : exec (.timeE0 a v) s = execTimeE0 a v s := rfl
theorem exec_fabricArrival (l : Fin 48) (x : FabHeader) (data : List Byte) (s : State) : exec (.fabricArrival l x data) s = execFabricArrival l x data s := rfl
theorem exec_scheduledDelivery (l : Fin 48) (s : State) : exec (.scheduledDelivery l) s = execScheduledDelivery l s := rfl
theorem exec_failureNotice (x : NoticeArrival) (s : State) : exec (.failureNotice x) s = execFailureNotice x s := rfl
theorem exec_meshResend (h : Fin 544) (m : MeshResend) (s : State) : exec (.meshResend h m) s = execMeshResend h m s := rfl
theorem exec_hvcAdd (a : Acc) (g : Fin 64) (j : Fin 64) (v : Word) (s : State) : exec (.hvcAdd a g j v) s = execHvcAdd a g j v s := rfl
theorem exec_completionWrite (p : Fin 32) (q : Fin 16) (s : State) : exec (.completionWrite p q) s = execCompletionWrite p q s := rfl
theorem exec_hbeat (a : Acc) (v : Word) (s : State) : exec (.hbeat a v) s = execHbeat a v s := rfl
theorem exec_stewardLapsed (s : State) : exec .stewardLapsed s = execStewardLapsed s := rfl
theorem exec_claim (a : Acc) (v : Word) (s : State) : exec (.claim a v) s = execClaim a v s := rfl
theorem exec_fenceEnd (s : State) : exec .fenceEnd s = execFenceEnd s := rfl
theorem exec_deviceCommit (a : Acc) (v : Word) (s : State) : exec (.deviceCommit a v) s = execDeviceCommit a v s := rfl
theorem exec_deviceCommitDone (s : State) : exec .deviceCommitDone s = execDeviceCommitDone s := rfl
theorem exec_pcommitDiscard (a : Acc) (v : Word) (s : State) : exec (.pcommitDiscard a v) s = execPcommitDiscard a v s := rfl
theorem exec_partCommit (a : Acc) (p : Fin 32) (v : Word) (s : State) : exec (.partCommit a p v) s = execPartCommit a p v s := rfl
theorem exec_partCommitDone (p : Fin 32) (s : State) : exec (.partCommitDone p) s = execPartCommitDone p s := rfl
theorem exec_partDiscard (a : Acc) (p : Fin 32) (v : Word) (s : State) : exec (.partDiscard a p v) s = execPartDiscard a p v s := rfl
theorem exec_pcieReset (port : Bool) (k : PcieReset) (s : State) : exec (.pcieReset port k) s = execPcieReset port k s := rfl
theorem exec_pcieLinkUp (port : Bool) (s : State) : exec (.pcieLinkUp port) s = execPcieLinkUp port s := rfl
theorem exec_hostBarAccess (x : BarAccess) (s : State) : exec (.hostBarAccess x) s = execHostBarAccess x s := rfl
theorem exec_registerWrite (x : RegAccess) (v : Word) (s : State) : exec (.registerWrite x v) s = execRegisterWrite x v s := rfl
theorem exec_ridgeLaneBad (m : Fin 128) (b : RidgeBad) (s : State) : exec (.ridgeLaneBad m b) s = execRidgeLaneBad m b s := rfl
theorem exec_ridgeRetrained (m : Fin 128) (s : State) : exec (.ridgeRetrained m) s = execRidgeRetrained m s := rfl
theorem exec_ridgeHandshake (m : Fin 128) (s : State) : exec (.ridgeHandshake m) s = execRidgeHandshake m s := rfl
theorem exec_rstside (a : Acc) (m : Fin 128) (v : Word) (s : State) : exec (.rstside a m v) s = execRstside a m v s := rfl
theorem exec_ridgeRetestDone (m : Fin 128) (peakSide : Bool) (bad : List Nat) (s : State) : exec (.ridgeRetestDone m peakSide bad) s = execRidgeRetestDone m peakSide bad s := rfl
theorem exec_guestRd (addr : Nat) (len : Nat) (s : State) : exec (.guestRd addr len) s = execGuestRd addr len s := rfl
theorem exec_guestWr (addr : Nat) (data : List Byte) (s : State) : exec (.guestWr addr data) s = execGuestWr addr data s := rfl
theorem exec_guestCadd (c : BitVec 20) (amount : W32) (s : State) : exec (.guestCadd c amount) s = execGuestCadd c amount s := rfl
theorem exec_guestCrd (c : BitVec 20) (s : State) : exec (.guestCrd c) s = execGuestCrd c s := rfl
theorem exec_guestLinkDown (s : State) : exec .guestLinkDown s = execGuestLinkDown s := rfl
theorem exec_greset (a : Acc) (v : Word) (s : State) : exec (.greset a v) s = execGreset a v s := rfl
theorem exec_gstCommit (a : Acc) (v : Word) (s : State) : exec (.gstCommit a v) s = execGstCommit a v s := rfl
theorem exec_gstDiscard (a : Acc) (v : Word) (s : State) : exec (.gstDiscard a v) s = execGstDiscard a v s := rfl
theorem exec_vglowUp (strap : Bool) (fusesOk : Bool) (s : State) : exec (.vglowUp strap fusesOk) s = execVglowUp strap fusesOk s := rfl
theorem exec_railInRegulation (r : Fin 8) (s : State) : exec (.railInRegulation r) s = execRailInRegulation r s := rfl
theorem exec_railSeqFail (r : Fin 8) (s : State) : exec (.railSeqFail r) s = execRailSeqFail r s := rfl
theorem exec_railSeqRetry (s : State) : exec .railSeqRetry s = execRailSeqRetry s := rfl
theorem exec_bupGo (a : Acc) (v : Word) (s : State) : exec (.bupGo a v) s = execBupGo a v s := rfl
theorem exec_bupSkip (a : Acc) (v : Word) (s : State) : exec (.bupSkip a v) s = execBupSkip a v s := rfl
theorem exec_bupStepDone (elapsedMs : Nat) (r : BupFindings) (s : State) : exec (.bupStepDone elapsedMs r) s = execBupStepDone elapsedMs r s := rfl
theorem exec_saveRecord (a : Acc) (v : Word) (s : State) : exec (.saveRecord a v) s = execSaveRecord a v s := rfl
theorem exec_rowShiftRepair (h : Fin 544) (countersReadable : Bool) (s : State) : exec (.rowShiftRepair h countersReadable) s = execRowShiftRepair h countersReadable s := rfl
theorem exec_tileMigrateDone (c : Fin 32) (s : State) : exec (.tileMigrateDone c) s = execTileMigrateDone c s := rfl
theorem exec_refillDone (c : Fin 32) (s : State) : exec (.refillDone c) s = execRefillDone c s := rfl
theorem exec_repairComplete (c : Fin 32) (s : State) : exec (.repairComplete c) s = execRepairComplete c s := rfl
theorem exec_tileReset (a : Acc) (v : Word) (s : State) : exec (.tileReset a v) s = execTileReset a v s := rfl
theorem exec_clusterReset (a : Acc) (v : Word) (s : State) : exec (.clusterReset a v) s = execClusterReset a v s := rfl
theorem exec_deviceReset (a : Acc) (v : Word) (s : State) : exec (.deviceReset a v) s = execDeviceReset a v s := rfl
theorem exec_partReset (a : Acc) (p : Fin 32) (v : Word) (s : State) : exec (.partReset a p v) s = execPartReset a p v s := rfl
theorem exec_resetDone (r : ResetScope) (s : State) : exec (.resetDone r) s = execResetDone r s := rfl
theorem exec_supplyDroop (m : Fin 201) (mv : Nat) (s : State) : exec (.supplyDroop m mv) s = execSupplyDroop m mv s := rfl
theorem exec_supplyDip (m : Fin 201) (s : State) : exec (.supplyDip m) s = execSupplyDip m s := rfl
theorem exec_supplyRecover (m : Fin 201) (lowest : Nat) (durationNs : Nat) (s : State) : exec (.supplyRecover m lowest durationNs) s = execSupplyRecover m lowest durationNs s := rfl
theorem exec_supplySustained (m : Fin 201) (lowest : Nat) (s : State) : exec (.supplySustained m lowest) s = execSupplySustained m lowest s := rfl
theorem exec_supplyReset (m : Fin 201) (lowest : Nat) (s : State) : exec (.supplyReset m lowest) s = execSupplyReset m lowest s := rfl
theorem exec_housekeepingRound (r : Round) (s : State) : exec (.housekeepingRound r) s = execHousekeepingRound r s := rfl
theorem exec_pmbusPoll (r : List PmbusReading) (s : State) : exec (.pmbusPoll r) s = execPmbusPoll r s := rfl
theorem exec_avsbusCompletion (r : Fin 8) (s : State) : exec (.avsbusCompletion r) s = execAvsbusCompletion r s := rfl
theorem exec_graceExpiry (s : State) : exec .graceExpiry s = execGraceExpiry s := rfl
theorem exec_ack (a : Acc) (v : Word) (s : State) : exec (.ack a v) s = execAck a v s := rfl
theorem exec_coolantWrite (a : Acc) (v : Word) (s : State) : exec (.coolantWrite a v) s = execCoolantWrite a v s := rfl
theorem exec_coolantStale (s : State) : exec .coolantStale s = execCoolantStale s := rfl
theorem exec_i3cZeroFlow (s : State) : exec .i3cZeroFlow s = execI3cZeroFlow s := rfl
theorem exec_pllOn (a : Acc) (v : Word) (s : State) : exec (.pllOn a v) s = execPllOn a v s := rfl
theorem exec_pllLocked (c : Fin 32) (s : State) : exec (.pllLocked c) s = execPllLocked c s := rfl
theorem exec_clockMonitor (f : ClockFindings) (s : State) : exec (.clockMonitor f) s = execClockMonitor f s := rfl
theorem exec_scFault (c : ScCause) (s : State) : exec (.scFault c) s = execScFault c s := rfl
theorem exec_scWatchdog (s : State) : exec .scWatchdog s = execScWatchdog s := rfl
theorem exec_scRestart (a : Acc) (v : Word) (s : State) : exec (.scRestart a v) s = execScRestart a v s := rfl
theorem exec_logTake (s : State) : exec .logTake s = execLogTake s := rfl
theorem exec_rdseqWrite (a : Acc) (v : Word) (s : State) : exec (.rdseqWrite a v) s = execRdseqWrite a v s := rfl
theorem exec_logClr (a : Acc) (v : Word) (s : State) : exec (.logClr a v) s = execLogClr a v s := rfl
theorem exec_handoverGo (a : Acc) (v : Word) (s : State) : exec (.handoverGo a v) s = execHandoverGo a v s := rfl
theorem exec_handoverAbort (a : Acc) (v : Word) (s : State) : exec (.handoverAbort a v) s = execHandoverAbort a v s := rfl
theorem exec_handoverLoaded (s : State) : exec .handoverLoaded s = execHandoverLoaded s := rfl
theorem exec_quiescentPoint (s : State) : exec .quiescentPoint s = execQuiescentPoint s := rfl
theorem exec_quiescenceTimeout (s : State) : exec .quiescenceTimeout s = execQuiescenceTimeout s := rfl
theorem exec_probationEnd (s : State) : exec .probationEnd s = execProbationEnd s := rfl
theorem exec_svngo (a : Acc) (v : Word) (s : State) : exec (.svngo a v) s = execSvngo a v s := rfl
theorem exec_revgo (a : Acc) (v : Word) (s : State) : exec (.revgo a v) s = execRevgo a v s := rfl
theorem exec_spdmRequest (port : Bool) (r : SpdmRequest) (s : State) : exec (.spdmRequest port r) s = execSpdmRequest port r s := rfl
theorem exec_getMeasurements (port : Bool) (index : Nat) (s : State) : exec (.getMeasurements port index) s = execGetMeasurements port index s := rfl
theorem exec_ideQuery (port : Bool) (session : Nat) (s : State) : exec (.ideQuery port session) s = execIdeQuery port session s := rfl
theorem exec_keyProg (port : Bool) (session : Nat) (x : IdeKey) (s : State) : exec (.keyProg port session x) s = execKeyProg port session x s := rfl
theorem exec_kSetGo (port : Bool) (session : Nat) (x : IdeSet) (s : State) : exec (.kSetGo port session x) s = execKSetGo port session x s := rfl
theorem exec_kSetStop (port : Bool) (session : Nat) (x : IdeSet) (s : State) : exec (.kSetStop port session x) s = execKSetStop port session x s := rfl
theorem exec_ideIntegrity (port : Bool) (stream : Nat) (s : State) : exec (.ideIntegrity port stream) s = execIdeIntegrity port stream s := rfl
theorem exec_idcode (s : State) : exec .idcode s = execIdcode s := rfl
theorem exec_bypass (s : State) : exec .bypass s = execBypass s := rfl
theorem exec_samplePreload (pins : List Bool) (s : State) : exec (.samplePreload pins) s = execSamplePreload pins s := rfl
theorem exec_extest (s : State) : exec .extest s = execExtest s := rfl
theorem exec_challenge (level : Nat) (s : State) : exec (.challenge level) s = execChallenge level s := rfl
theorem exec_unlock (key : List Byte) (signature : List Byte) (s : State) : exec (.unlock key signature) s = execUnlock key signature s := rfl
theorem exec_challengeLockoutEnd (s : State) : exec .challengeLockoutEnd s = execChallengeLockoutEnd s := rfl
theorem exec_debugRelock (a : Acc) (v : Word) (s : State) : exec (.debugRelock a v) s = execDebugRelock a v s := rfl
theorem exec_cairnPowerup (romOk : Bool) (calOk : Bool) (s : State) : exec (.cairnPowerup romOk calOk) s = execCairnPowerup romOk calOk s := rfl
theorem exec_cairnRecord (x : CairnInterval) (s : State) : exec (.cairnRecord x) s = execCairnRecord x s := rfl
theorem exec_cairnRomCheck (ok : Bool) (s : State) : exec (.cairnRomCheck ok) s = execCairnRomCheck ok s := rfl
theorem exec_cairnPowerFail (s : State) : exec .cairnPowerFail s = execCairnPowerFail s := rfl
theorem exec_cairnDipDetect (rail : Fin 9) (data : BitVec 128) (s : State) : exec (.cairnDipDetect rail data) s = execCairnDipDetect rail data s := rfl
theorem exec_ident (s : State) : exec .ident s = execIdent s := rfl
theorem exec_recall (seq : W32) (s : State) : exec (.recall seq) s = execRecall seq s := rfl
theorem exec_readerEvent (number : W32) (s : State) : exec (.readerEvent number) s = execReaderEvent number s := rfl
theorem exec_cairnFrameReceive (payload : List Byte) (crcOk : Bool) (s : State) : exec (.cairnFrameReceive payload crcOk) s = execCairnFrameReceive payload crcOk s := rfl
theorem exec_cairnSilent (s : State) : exec .cairnSilent s = execCairnSilent s := rfl
theorem exec_vglowLoss (s : State) : exec .vglowLoss s = execVglowLoss s := rfl
theorem exec_railWarning (m : Fin 201) (lowest : Nat) (durationNs : Nat) (s : State) : exec (.railWarning m lowest durationNs) s = execRailWarning m lowest durationNs s := rfl
theorem exec_guestLinkActive (speed : Nat) (width : Nat) (s : State) : exec (.guestLinkActive speed width) s = execGuestLinkActive speed width s := rfl
theorem exec_guestOtherMessage (isRead : Bool) (s : State) : exec (.guestOtherMessage isRead) s = execGuestOtherMessage isRead s := rfl
theorem exec_timeNowRead (port : Bool) (s : State) : exec (.timeNowRead port) s = execTimeNowRead port s := rfl
theorem exec_scbeatAdvance (s : State) : exec .scbeatAdvance s = execScbeatAdvance s := rfl
theorem exec_debugPortAccess (x : DebugAccess) (s : State) : exec (.debugPortAccess x) s = execDebugPortAccess x s := rfl
theorem exec_readerUnknownType (type : Byte) (lenWrong : Bool) (s : State) : exec (.readerUnknownType type lenWrong) s = execReaderUnknownType type lenWrong s := rfl
theorem exec_currentBeyondSensorRange (rail : Fin 9) (data : BitVec 128) (s : State) : exec (.currentBeyondSensorRange rail data) s = execCurrentBeyondSensorRange rail data s := rfl
theorem exec_cairnSensorFault (data : BitVec 128) (s : State) : exec (.cairnSensorFault data) s = execCairnSensorFault data s := rfl
theorem exec_testNRelease (s : State) : exec .testNRelease s = execTestNRelease s := rfl

/-- With a command in front, a step executes it. -/
theorem step_cons (c : Instr) (q : List Instr) (s : State) (h : s.pending = c :: q) :
    step s = exec c { s with pending := q } := by
  unfold step; rw [h]

end Sys2Proof.Machine
end

