-- ==== Sys2Proof/Laws/Map.lean ====
section
/-! SUPPORT. Laws of sparse maps and byte memories: a read after a write, and the canonical form. -/
namespace Sys2Proof.Machine

variable {α : Type}

@[simp] theorem SMap.get_nil (d : α) (k : Nat) : SMap.get d [] k = d := rfl

@[simp] theorem SMap.get_put_same (d : α) (m : SMap α) (k : Nat) (v : α) :
    SMap.get d (SMap.put k v m) k = v := by
  induction m with
  | nil => simp [SMap.put, SMap.get]
  | cons e r ih =>
    obtain ⟨j, w⟩ := e
    unfold SMap.put
    split
    · simp [SMap.get]
    · split
      · simp [SMap.get]
      · simp [SMap.get, *]

theorem SMap.get_put_ne (d : α) (m : SMap α) {k j : Nat} (v : α) (h : j ≠ k) :
    SMap.get d (SMap.put k v m) j = SMap.get d m j := by
  induction m with
  | nil => simp [SMap.put, SMap.get, h]
  | cons e r ih =>
    obtain ⟨i, w⟩ := e
    unfold SMap.put
    split
    · simp [SMap.get, h]
    · split
      · subst_vars; simp [SMap.get, h]
      · simp only [SMap.get, ih]

theorem SMap.get_put (d : α) (m : SMap α) (k j : Nat) (v : α) :
    SMap.get d (SMap.put k v m) j = if j = k then v else SMap.get d m j := by
  split
  · subst_vars; simp
  · exact SMap.get_put_ne d m v ‹_›

@[simp] theorem SMap.get_drop_same (d : α) (m : SMap α) (k : Nat) : SMap.get d (SMap.drop k m) k = d := by
  induction m with
  | nil => rfl
  | cons e r ih =>
    obtain ⟨j, w⟩ := e
    unfold SMap.drop
    split
    · exact ih
    · simp [SMap.get, *]

theorem SMap.get_drop_ne (d : α) (m : SMap α) {k j : Nat} (h : j ≠ k) :
    SMap.get d (SMap.drop k m) j = SMap.get d m j := by
  induction m with
  | nil => rfl
  | cons e r ih =>
    obtain ⟨i, w⟩ := e
    unfold SMap.drop
    split
    · subst_vars; simp [SMap.get, h, ih]
    · simp only [SMap.get, ih]

@[simp] theorem SMap.put_put (m : SMap α) (k : Nat) (v w : α) :
    SMap.put k v (SMap.put k w m) = SMap.put k v m := by
  induction m with
  | nil => simp [SMap.put]
  | cons e r ih =>
    obtain ⟨j, x⟩ := e
    by_cases h1 : k < j
    · simp [SMap.put, h1]
    · by_cases h2 : k = j
      · subst h2; simp [SMap.put]
      · simp [SMap.put, h1, h2, ih]

/-- Every value that a changed map lists is the new one or an old one. -/
theorem SMap.mem_put {m : SMap α} {k : Nat} {v : α} {e : Nat × α} (h : e ∈ SMap.put k v m) :
    e = (k, v) ∨ e ∈ m := by
  induction m with
  | nil => simpa [SMap.put] using h
  | cons x r ih =>
    obtain ⟨j, w⟩ := x
    unfold SMap.put at h
    split at h
    · simpa [or_assoc] using h
    · split at h
      · rcases List.mem_cons.1 h with h | h
        · exact .inl h
        · exact .inr (List.mem_cons_of_mem _ h)
      · rcases List.mem_cons.1 h with h | h
        · exact .inr (h ▸ List.mem_cons_self)
        · exact (ih h).imp id (List.mem_cons_of_mem _)

theorem SMap.mem_drop {m : SMap α} {k : Nat} {e : Nat × α} (h : e ∈ SMap.drop k m) : e ∈ m := by
  induction m with
  | nil => exact h
  | cons x r ih =>
    obtain ⟨j, w⟩ := x
    unfold SMap.drop at h
    split at h
    · exact List.mem_cons_of_mem _ (ih h)
    · rcases List.mem_cons.1 h with h | h
      · exact h ▸ List.mem_cons_self
      · exact List.mem_cons_of_mem _ (ih h)

/-- A value read from a map is the default or listed. -/
theorem SMap.get_cases (d : α) (m : SMap α) (k : Nat) :
    SMap.get d m k = d ∨ (k, SMap.get d m k) ∈ m := by
  induction m with
  | nil => exact .inl rfl
  | cons x r ih =>
    obtain ⟨j, w⟩ := x
    unfold SMap.get
    split
    · subst_vars; exact .inr List.mem_cons_self
    · exact ih.imp id (List.mem_cons_of_mem _)

/-! Byte memories. -/

@[simp] theorem Mem.read_write_same (m : Mem) (a : Nat) (b : Byte) : (m.write a b).read a = b := by
  unfold Mem.write Mem.read
  split
  · subst_vars; simp
  · simp

theorem Mem.read_write_ne (m : Mem) {a x : Nat} (b : Byte) (h : x ≠ a) : (m.write a b).read x = m.read x := by
  unfold Mem.write Mem.read
  split
  · exact SMap.get_drop_ne _ _ h
  · exact SMap.get_put_ne _ _ _ h

theorem Mem.read_writeBytes_out (bs : List Byte) (m : Mem) (a x : Nat) (h : x < a ∨ a + bs.length ≤ x) :
    (m.writeBytes a bs).read x = m.read x := by
  induction bs generalizing m a with
  | nil => rfl
  | cons b bs ih =>
    simp only [List.length_cons] at h
    rw [Mem.writeBytes, ih _ _ (by omega), Mem.read_write_ne _ _ (by omega)]

theorem Mem.read_writeBytes_in (bs : List Byte) (m : Mem) (a i : Nat) (h : i < bs.length) :
    (m.writeBytes a bs).read (a + i) = bs[i] := by
  induction bs generalizing m a i with
  | nil => simp at h
  | cons b bs ih =>
    rw [Mem.writeBytes]
    cases i with
    | zero => rw [Mem.read_writeBytes_out _ _ _ _ (by omega)]; simp
    | succ i =>
      have := ih (m.write a b) (a + 1) i (by simpa using h)
      rw [show a + 1 + i = a + (i + 1) by omega] at this
      simpa using this

theorem Mem.wfFrom_drop (m : Mem) (lo : Option Nat) (a : Nat) (h : Mem.wfFrom lo m = true) :
    Mem.wfFrom lo (SMap.drop a m) = true := by
  suffices H : ∀ (m : Mem) (lo lo' : Option Nat), Mem.wfFrom lo m = true →
      (∀ x, lo' = some x → ∃ y, lo = some y ∧ x ≤ y) → Mem.wfFrom lo' (SMap.drop a m) = true from
    H m lo lo h fun x hx => ⟨x, hx, Nat.le_refl x⟩
  clear h
  intro m
  induction m with
  | nil => intros; rfl
  | cons e r ih =>
    obtain ⟨j, w⟩ := e
    intro lo lo' hw hl
    have hj : ∀ x, lo' = some x → x < j := by
      intro x hx
      obtain ⟨y, hy, hxy⟩ := hl x hx
      simp [Mem.wfFrom, hy] at hw
      omega
    unfold SMap.drop
    split
    · refine ih (some j) lo' (by simp [Mem.wfFrom] at hw; exact hw.2) fun x hx => ⟨j, rfl, ?_⟩
      have := hj x hx; omega
    · have hw' : (w != Mem.blank) = true ∧ Mem.wfFrom (some j) r = true := by
        simp only [Mem.wfFrom, Bool.and_eq_true] at hw; exact ⟨hw.1.2, hw.2⟩
      have := ih (some j) (some j) hw'.2 fun x hx => ⟨x, hx, Nat.le_refl x⟩
      cases lo' with
      | none => simp [Mem.wfFrom, hw'.1, this]
      | some x => simp [Mem.wfFrom, hw'.1, this, hj x rfl]

theorem Mem.wfFrom_put (m : Mem) (lo : Option Nat) (a : Nat) (b : Byte) (hb : b ≠ Mem.blank)
    (hl : ∀ x, lo = some x → x < a) (h : Mem.wfFrom lo m = true) : Mem.wfFrom lo (SMap.put a b m) = true := by
  induction m generalizing lo with
  | nil => cases lo <;> simp_all [SMap.put, Mem.wfFrom]
  | cons e r ih =>
    obtain ⟨j, w⟩ := e
    have hw : (w != Mem.blank) = true ∧ Mem.wfFrom (some j) r = true := by
      simp only [Mem.wfFrom, Bool.and_eq_true] at h; exact ⟨h.1.2, h.2⟩
    unfold SMap.put
    split
    · cases lo <;> simp_all [Mem.wfFrom]
    · split
      · subst_vars; cases lo <;> simp_all [Mem.wfFrom]
      · have := ih (some j) (by intro x hx; cases hx; omega) hw.2
        cases lo <;> simp_all [Mem.wfFrom]

/-- A write keeps the canonical form. -/
theorem Mem.wf_write {m : Mem} (h : m.wf = true) (a : Nat) (b : Byte) : (m.write a b).wf = true := by
  unfold Mem.write Mem.wf
  split
  · exact Mem.wfFrom_drop _ _ _ h
  · exact Mem.wfFrom_put _ _ _ _ ‹_› (by simp) h

theorem Mem.wf_writeBytes (bs : List Byte) {m : Mem} (h : m.wf = true) (a : Nat) :
    (m.writeBytes a bs).wf = true := by
  induction bs generalizing m a with
  | nil => exact h
  | cons b bs ih => exact ih (Mem.wf_write h a b) _

theorem Mem.wf_writeNat {m : Mem} (h : m.wf = true) (a len n : Nat) : (m.writeNat a len n).wf = true :=
  Mem.wf_writeBytes _ h a

theorem Mem.wf_writeMasked (bs : List Byte) (ks : List Bool) {m : Mem} (h : m.wf = true) (a : Nat) :
    (m.writeMasked a bs ks).wf = true := by
  induction bs generalizing m a ks with
  | nil => unfold Mem.writeMasked; exact h
  | cons b bs ih =>
    cases ks with
    | nil => exact h
    | cons k ks =>
      cases k
      · exact ih ks h _
      · exact ih ks (Mem.wf_write h a b) _

theorem Mem.wfFrom_filter (p : Host.Cell → Bool) (m : Mem) (lo lo' : Option Nat) (h : Mem.wfFrom lo m = true)
    (hl : ∀ x, lo' = some x → ∃ y, lo = some y ∧ x ≤ y) : Mem.wfFrom lo' (m.filter p) = true := by
  induction m generalizing lo lo' with
  | nil => rfl
  | cons e r ih =>
    obtain ⟨j, w⟩ := e
    have hj : ∀ x, lo' = some x → x < j := by
      intro x hx
      obtain ⟨y, hy, hxy⟩ := hl x hx
      simp [Mem.wfFrom, hy] at h
      omega
    have hw : (w != Mem.blank) = true ∧ Mem.wfFrom (some j) r = true := by
      simp only [Mem.wfFrom, Bool.and_eq_true] at h; exact ⟨h.1.2, h.2⟩
    rw [List.filter_cons]
    split
    · have := ih (some j) (some j) hw.2 fun x hx => ⟨x, hx, Nat.le_refl x⟩
      cases lo' with
      | none => simp [Mem.wfFrom, hw.1, this]
      | some x => simp [Mem.wfFrom, hw.1, this, hj x rfl]
    · refine ih (some j) lo' hw.2 fun x hx => ⟨j, rfl, ?_⟩
      have := hj x hx; omega

theorem Mem.wf_filter (p : Host.Cell → Bool) {m : Mem} (h : m.wf = true) : Mem.wf (m.filter p) = true :=
  Mem.wfFrom_filter p m none none h (by simp)

theorem Mem.wf_fill {m : Mem} (h : m.wf = true) (a len : Nat) : (m.fill a len).wf = true := Mem.wf_filter _ h

/-- Filling an address range with blanks leaves every other address alone. -/
theorem Mem.read_fill_out (m : Mem) (a len x : Nat) (h : x < a ∨ a + len ≤ x) : (m.fill a len).read x = m.read x := by
  unfold Mem.fill Mem.read
  induction m with
  | nil => rfl
  | cons e r ih =>
    obtain ⟨j, w⟩ := e
    rw [List.filter_cons]
    split
    · simp only [SMap.get]; split
      · rfl
      · exact ih
    · rename_i hp
      simp only [SMap.get]
      split
      · simp at hp; omega
      · exact ih

theorem Mem.read_fill_in (m : Mem) (a len x : Nat) (h : a ≤ x ∧ x < a + len) :
    (m.fill a len).read x = Mem.blank := by
  unfold Mem.fill Mem.read
  induction m with
  | nil => rfl
  | cons e r ih =>
    obtain ⟨j, w⟩ := e
    rw [List.filter_cons]
    split
    · rename_i hp
      simp only [SMap.get]; split
      · simp at hp; omega
      · exact ih
    · exact ih

end Sys2Proof.Machine
end

