-- ==== Sys2Proof/Laws/State.lean ====
section
/-! SUPPORT. What each update of the state leaves alone, field by field, and what it reads back. -/
namespace Sys2Proof.Machine

variable (s : State)

@[simp] theorem State.setTile_pending (h : Nat) (t : Tile) : (s.setTile h t).pending = s.pending := rfl
@[simp] theorem State.setTile_free (h : Nat) (t : Tile) : (s.setTile h t).free = s.free := rfl
@[simp] theorem State.setTile_flt (h : Nat) (t : Tile) : (s.setTile h t).flt = s.flt := rfl
@[simp] theorem State.setTile_sent (h : Nat) (t : Tile) : (s.setTile h t).sent = s.sent := rfl
@[simp] theorem State.setTile_cyc (h : Nat) (t : Tile) : (s.setTile h t).cyc = s.cyc := rfl
@[simp] theorem State.setTile_markCyc (h : Nat) (t : Tile) : (s.setTile h t).markCyc = s.markCyc := rfl
@[simp] theorem State.setTile_regs (h : Nat) (t : Tile) : (s.setTile h t).regs = s.regs := rfl
@[simp] theorem State.setTile_eff (h : Nat) (t : Tile) : (s.setTile h t).eff = s.eff := rfl
@[simp] theorem State.setTile_resetAt (h : Nat) (t : Tile) : (s.setTile h t).resetAt = s.resetAt := rfl
@[simp] theorem State.setTile_grt (h : Nat) (t : Tile) : (s.setTile h t).grt = s.grt := rfl
@[simp] theorem State.setTile_hv (h : Nat) (t : Tile) : (s.setTile h t).hv = s.hv := rfl
@[simp] theorem State.setTile_hvSat (h : Nat) (t : Tile) : (s.setTile h t).hvSat = s.hvSat := rfl
@[simp] theorem State.setTile_hvWas (h : Nat) (t : Tile) : (s.setTile h t).hvWas = s.hvWas := rfl
@[simp] theorem State.setTile_boards (h : Nat) (t : Tile) : (s.setTile h t).boards = s.boards := rfl
@[simp] theorem State.setTile_cores (h : Nat) (t : Tile) : (s.setTile h t).cores = s.cores := rfl
@[simp] theorem State.setTile_adds (h : Nat) (t : Tile) : (s.setTile h t).adds = s.adds := rfl
@[simp] theorem State.setTile_parts (h : Nat) (t : Tile) : (s.setTile h t).parts = s.parts := rfl
@[simp] theorem State.setTile_memStacks (h : Nat) (t : Tile) : (s.setTile h t).memStacks = s.memStacks := rfl
@[simp] theorem State.setTile_mem (h : Nat) (t : Tile) : (s.setTile h t).mem = s.mem := rfl
@[simp] theorem State.setTile_hostMem0 (h : Nat) (t : Tile) : (s.setTile h t).hostMem0 = s.hostMem0 := rfl
@[simp] theorem State.setTile_hostMem1 (h : Nat) (t : Tile) : (s.setTile h t).hostMem1 = s.hostMem1 := rfl
@[simp] theorem State.setTile_guestMem (h : Nat) (t : Tile) : (s.setTile h t).guestMem = s.guestMem := rfl
@[simp] theorem State.setTile_ecc (h : Nat) (t : Tile) : (s.setTile h t).ecc = s.ecc := rfl
@[simp] theorem State.setTile_walks (h : Nat) (t : Tile) : (s.setTile h t).walks = s.walks := rfl
@[simp] theorem State.setTile_arrivals (h : Nat) (t : Tile) : (s.setTile h t).arrivals = s.arrivals := rfl
@[simp] theorem State.setTile_links (h : Nat) (t : Tile) : (s.setTile h t).links = s.links := rfl
@[simp] theorem State.setTile_deliveries (h : Nat) (t : Tile) : (s.setTile h t).deliveries = s.deliveries := rfl
@[simp] theorem State.setTile_time (h : Nat) (t : Tile) : (s.setTile h t).time = s.time := rfl
@[simp] theorem State.setTile_port0 (h : Nat) (t : Tile) : (s.setTile h t).port0 = s.port0 := rfl
@[simp] theorem State.setTile_port1 (h : Nat) (t : Tile) : (s.setTile h t).port1 = s.port1 := rfl
@[simp] theorem State.setTile_steward (h : Nat) (t : Tile) : (s.setTile h t).steward = s.steward := rfl
@[simp] theorem State.setTile_bup (h : Nat) (t : Tile) : (s.setTile h t).bup = s.bup := rfl
@[simp] theorem State.setTile_glow (h : Nat) (t : Tile) : (s.setTile h t).glow = s.glow := rfl
@[simp] theorem State.setTile_therm (h : Nat) (t : Tile) : (s.setTile h t).therm = s.therm := rfl
@[simp] theorem State.setTile_sec (h : Nat) (t : Tile) : (s.setTile h t).sec = s.sec := rfl
@[simp] theorem State.setTile_cairn (h : Nat) (t : Tile) : (s.setTile h t).cairn = s.cairn := rfl
@[simp] theorem State.setTile_guest (h : Nat) (t : Tile) : (s.setTile h t).guest = s.guest := rfl
@[simp] theorem State.setTile_ridge (h : Nat) (t : Tile) : (s.setTile h t).ridge = s.ridge := rfl

@[simp] theorem State.updTile_pending (h : Nat) (f : Tile → Tile) : (s.updTile h f).pending = s.pending := rfl
@[simp] theorem State.updTile_free (h : Nat) (f : Tile → Tile) : (s.updTile h f).free = s.free := rfl
@[simp] theorem State.updTile_flt (h : Nat) (f : Tile → Tile) : (s.updTile h f).flt = s.flt := rfl
@[simp] theorem State.updTile_sent (h : Nat) (f : Tile → Tile) : (s.updTile h f).sent = s.sent := rfl
@[simp] theorem State.updTile_cyc (h : Nat) (f : Tile → Tile) : (s.updTile h f).cyc = s.cyc := rfl
@[simp] theorem State.updTile_markCyc (h : Nat) (f : Tile → Tile) : (s.updTile h f).markCyc = s.markCyc := rfl
@[simp] theorem State.updTile_regs (h : Nat) (f : Tile → Tile) : (s.updTile h f).regs = s.regs := rfl
@[simp] theorem State.updTile_eff (h : Nat) (f : Tile → Tile) : (s.updTile h f).eff = s.eff := rfl
@[simp] theorem State.updTile_resetAt (h : Nat) (f : Tile → Tile) : (s.updTile h f).resetAt = s.resetAt := rfl
@[simp] theorem State.updTile_grt (h : Nat) (f : Tile → Tile) : (s.updTile h f).grt = s.grt := rfl
@[simp] theorem State.updTile_hv (h : Nat) (f : Tile → Tile) : (s.updTile h f).hv = s.hv := rfl
@[simp] theorem State.updTile_hvSat (h : Nat) (f : Tile → Tile) : (s.updTile h f).hvSat = s.hvSat := rfl
@[simp] theorem State.updTile_hvWas (h : Nat) (f : Tile → Tile) : (s.updTile h f).hvWas = s.hvWas := rfl
@[simp] theorem State.updTile_boards (h : Nat) (f : Tile → Tile) : (s.updTile h f).boards = s.boards := rfl
@[simp] theorem State.updTile_cores (h : Nat) (f : Tile → Tile) : (s.updTile h f).cores = s.cores := rfl
@[simp] theorem State.updTile_adds (h : Nat) (f : Tile → Tile) : (s.updTile h f).adds = s.adds := rfl
@[simp] theorem State.updTile_parts (h : Nat) (f : Tile → Tile) : (s.updTile h f).parts = s.parts := rfl
@[simp] theorem State.updTile_memStacks (h : Nat) (f : Tile → Tile) : (s.updTile h f).memStacks = s.memStacks := rfl
@[simp] theorem State.updTile_mem (h : Nat) (f : Tile → Tile) : (s.updTile h f).mem = s.mem := rfl
@[simp] theorem State.updTile_hostMem0 (h : Nat) (f : Tile → Tile) : (s.updTile h f).hostMem0 = s.hostMem0 := rfl
@[simp] theorem State.updTile_hostMem1 (h : Nat) (f : Tile → Tile) : (s.updTile h f).hostMem1 = s.hostMem1 := rfl
@[simp] theorem State.updTile_guestMem (h : Nat) (f : Tile → Tile) : (s.updTile h f).guestMem = s.guestMem := rfl
@[simp] theorem State.updTile_ecc (h : Nat) (f : Tile → Tile) : (s.updTile h f).ecc = s.ecc := rfl
@[simp] theorem State.updTile_walks (h : Nat) (f : Tile → Tile) : (s.updTile h f).walks = s.walks := rfl
@[simp] theorem State.updTile_arrivals (h : Nat) (f : Tile → Tile) : (s.updTile h f).arrivals = s.arrivals := rfl
@[simp] theorem State.updTile_links (h : Nat) (f : Tile → Tile) : (s.updTile h f).links = s.links := rfl
@[simp] theorem State.updTile_deliveries (h : Nat) (f : Tile → Tile) : (s.updTile h f).deliveries = s.deliveries := rfl
@[simp] theorem State.updTile_time (h : Nat) (f : Tile → Tile) : (s.updTile h f).time = s.time := rfl
@[simp] theorem State.updTile_port0 (h : Nat) (f : Tile → Tile) : (s.updTile h f).port0 = s.port0 := rfl
@[simp] theorem State.updTile_port1 (h : Nat) (f : Tile → Tile) : (s.updTile h f).port1 = s.port1 := rfl
@[simp] theorem State.updTile_steward (h : Nat) (f : Tile → Tile) : (s.updTile h f).steward = s.steward := rfl
@[simp] theorem State.updTile_bup (h : Nat) (f : Tile → Tile) : (s.updTile h f).bup = s.bup := rfl
@[simp] theorem State.updTile_glow (h : Nat) (f : Tile → Tile) : (s.updTile h f).glow = s.glow := rfl
@[simp] theorem State.updTile_therm (h : Nat) (f : Tile → Tile) : (s.updTile h f).therm = s.therm := rfl
@[simp] theorem State.updTile_sec (h : Nat) (f : Tile → Tile) : (s.updTile h f).sec = s.sec := rfl
@[simp] theorem State.updTile_cairn (h : Nat) (f : Tile → Tile) : (s.updTile h f).cairn = s.cairn := rfl
@[simp] theorem State.updTile_guest (h : Nat) (f : Tile → Tile) : (s.updTile h f).guest = s.guest := rfl
@[simp] theorem State.updTile_ridge (h : Nat) (f : Tile → Tile) : (s.updTile h f).ridge = s.ridge := rfl

@[simp] theorem State.setGrotto_pending (k : Nat) (c : Grotto) : (s.setGrotto k c).pending = s.pending := rfl
@[simp] theorem State.setGrotto_free (k : Nat) (c : Grotto) : (s.setGrotto k c).free = s.free := rfl
@[simp] theorem State.setGrotto_flt (k : Nat) (c : Grotto) : (s.setGrotto k c).flt = s.flt := rfl
@[simp] theorem State.setGrotto_sent (k : Nat) (c : Grotto) : (s.setGrotto k c).sent = s.sent := rfl
@[simp] theorem State.setGrotto_cyc (k : Nat) (c : Grotto) : (s.setGrotto k c).cyc = s.cyc := rfl
@[simp] theorem State.setGrotto_markCyc (k : Nat) (c : Grotto) : (s.setGrotto k c).markCyc = s.markCyc := rfl
@[simp] theorem State.setGrotto_regs (k : Nat) (c : Grotto) : (s.setGrotto k c).regs = s.regs := rfl
@[simp] theorem State.setGrotto_eff (k : Nat) (c : Grotto) : (s.setGrotto k c).eff = s.eff := rfl
@[simp] theorem State.setGrotto_tiles (k : Nat) (c : Grotto) : (s.setGrotto k c).tiles = s.tiles := rfl
@[simp] theorem State.setGrotto_roost (k : Nat) (c : Grotto) : (s.setGrotto k c).roost = s.roost := rfl
@[simp] theorem State.setGrotto_resetAt (k : Nat) (c : Grotto) : (s.setGrotto k c).resetAt = s.resetAt := rfl
@[simp] theorem State.setGrotto_hv (k : Nat) (c : Grotto) : (s.setGrotto k c).hv = s.hv := rfl
@[simp] theorem State.setGrotto_hvSat (k : Nat) (c : Grotto) : (s.setGrotto k c).hvSat = s.hvSat := rfl
@[simp] theorem State.setGrotto_hvWas (k : Nat) (c : Grotto) : (s.setGrotto k c).hvWas = s.hvWas := rfl
@[simp] theorem State.setGrotto_boards (k : Nat) (c : Grotto) : (s.setGrotto k c).boards = s.boards := rfl
@[simp] theorem State.setGrotto_cores (k : Nat) (c : Grotto) : (s.setGrotto k c).cores = s.cores := rfl
@[simp] theorem State.setGrotto_adds (k : Nat) (c : Grotto) : (s.setGrotto k c).adds = s.adds := rfl
@[simp] theorem State.setGrotto_parts (k : Nat) (c : Grotto) : (s.setGrotto k c).parts = s.parts := rfl
@[simp] theorem State.setGrotto_memStacks (k : Nat) (c : Grotto) : (s.setGrotto k c).memStacks = s.memStacks := rfl
@[simp] theorem State.setGrotto_mem (k : Nat) (c : Grotto) : (s.setGrotto k c).mem = s.mem := rfl
@[simp] theorem State.setGrotto_hostMem0 (k : Nat) (c : Grotto) : (s.setGrotto k c).hostMem0 = s.hostMem0 := rfl
@[simp] theorem State.setGrotto_hostMem1 (k : Nat) (c : Grotto) : (s.setGrotto k c).hostMem1 = s.hostMem1 := rfl
@[simp] theorem State.setGrotto_guestMem (k : Nat) (c : Grotto) : (s.setGrotto k c).guestMem = s.guestMem := rfl
@[simp] theorem State.setGrotto_ecc (k : Nat) (c : Grotto) : (s.setGrotto k c).ecc = s.ecc := rfl
@[simp] theorem State.setGrotto_walks (k : Nat) (c : Grotto) : (s.setGrotto k c).walks = s.walks := rfl
@[simp] theorem State.setGrotto_arrivals (k : Nat) (c : Grotto) : (s.setGrotto k c).arrivals = s.arrivals := rfl
@[simp] theorem State.setGrotto_links (k : Nat) (c : Grotto) : (s.setGrotto k c).links = s.links := rfl
@[simp] theorem State.setGrotto_deliveries (k : Nat) (c : Grotto) : (s.setGrotto k c).deliveries = s.deliveries := rfl
@[simp] theorem State.setGrotto_time (k : Nat) (c : Grotto) : (s.setGrotto k c).time = s.time := rfl
@[simp] theorem State.setGrotto_port0 (k : Nat) (c : Grotto) : (s.setGrotto k c).port0 = s.port0 := rfl
@[simp] theorem State.setGrotto_port1 (k : Nat) (c : Grotto) : (s.setGrotto k c).port1 = s.port1 := rfl
@[simp] theorem State.setGrotto_steward (k : Nat) (c : Grotto) : (s.setGrotto k c).steward = s.steward := rfl
@[simp] theorem State.setGrotto_bup (k : Nat) (c : Grotto) : (s.setGrotto k c).bup = s.bup := rfl
@[simp] theorem State.setGrotto_glow (k : Nat) (c : Grotto) : (s.setGrotto k c).glow = s.glow := rfl
@[simp] theorem State.setGrotto_therm (k : Nat) (c : Grotto) : (s.setGrotto k c).therm = s.therm := rfl
@[simp] theorem State.setGrotto_sec (k : Nat) (c : Grotto) : (s.setGrotto k c).sec = s.sec := rfl
@[simp] theorem State.setGrotto_cairn (k : Nat) (c : Grotto) : (s.setGrotto k c).cairn = s.cairn := rfl
@[simp] theorem State.setGrotto_guest (k : Nat) (c : Grotto) : (s.setGrotto k c).guest = s.guest := rfl
@[simp] theorem State.setGrotto_ridge (k : Nat) (c : Grotto) : (s.setGrotto k c).ridge = s.ridge := rfl

@[simp] theorem State.setPart_pending (p : Nat) (x : Part) : (s.setPart p x).pending = s.pending := rfl
@[simp] theorem State.setPart_free (p : Nat) (x : Part) : (s.setPart p x).free = s.free := rfl
@[simp] theorem State.setPart_flt (p : Nat) (x : Part) : (s.setPart p x).flt = s.flt := rfl
@[simp] theorem State.setPart_sent (p : Nat) (x : Part) : (s.setPart p x).sent = s.sent := rfl
@[simp] theorem State.setPart_cyc (p : Nat) (x : Part) : (s.setPart p x).cyc = s.cyc := rfl
@[simp] theorem State.setPart_markCyc (p : Nat) (x : Part) : (s.setPart p x).markCyc = s.markCyc := rfl
@[simp] theorem State.setPart_regs (p : Nat) (x : Part) : (s.setPart p x).regs = s.regs := rfl
@[simp] theorem State.setPart_eff (p : Nat) (x : Part) : (s.setPart p x).eff = s.eff := rfl
@[simp] theorem State.setPart_tiles (p : Nat) (x : Part) : (s.setPart p x).tiles = s.tiles := rfl
@[simp] theorem State.setPart_roost (p : Nat) (x : Part) : (s.setPart p x).roost = s.roost := rfl
@[simp] theorem State.setPart_resetAt (p : Nat) (x : Part) : (s.setPart p x).resetAt = s.resetAt := rfl
@[simp] theorem State.setPart_grt (p : Nat) (x : Part) : (s.setPart p x).grt = s.grt := rfl
@[simp] theorem State.setPart_hv (p : Nat) (x : Part) : (s.setPart p x).hv = s.hv := rfl
@[simp] theorem State.setPart_hvSat (p : Nat) (x : Part) : (s.setPart p x).hvSat = s.hvSat := rfl
@[simp] theorem State.setPart_hvWas (p : Nat) (x : Part) : (s.setPart p x).hvWas = s.hvWas := rfl
@[simp] theorem State.setPart_boards (p : Nat) (x : Part) : (s.setPart p x).boards = s.boards := rfl
@[simp] theorem State.setPart_cores (p : Nat) (x : Part) : (s.setPart p x).cores = s.cores := rfl
@[simp] theorem State.setPart_adds (p : Nat) (x : Part) : (s.setPart p x).adds = s.adds := rfl
@[simp] theorem State.setPart_memStacks (p : Nat) (x : Part) : (s.setPart p x).memStacks = s.memStacks := rfl
@[simp] theorem State.setPart_mem (p : Nat) (x : Part) : (s.setPart p x).mem = s.mem := rfl
@[simp] theorem State.setPart_hostMem0 (p : Nat) (x : Part) : (s.setPart p x).hostMem0 = s.hostMem0 := rfl
@[simp] theorem State.setPart_hostMem1 (p : Nat) (x : Part) : (s.setPart p x).hostMem1 = s.hostMem1 := rfl
@[simp] theorem State.setPart_guestMem (p : Nat) (x : Part) : (s.setPart p x).guestMem = s.guestMem := rfl
@[simp] theorem State.setPart_ecc (p : Nat) (x : Part) : (s.setPart p x).ecc = s.ecc := rfl
@[simp] theorem State.setPart_walks (p : Nat) (x : Part) : (s.setPart p x).walks = s.walks := rfl
@[simp] theorem State.setPart_arrivals (p : Nat) (x : Part) : (s.setPart p x).arrivals = s.arrivals := rfl
@[simp] theorem State.setPart_links (p : Nat) (x : Part) : (s.setPart p x).links = s.links := rfl
@[simp] theorem State.setPart_deliveries (p : Nat) (x : Part) : (s.setPart p x).deliveries = s.deliveries := rfl
@[simp] theorem State.setPart_time (p : Nat) (x : Part) : (s.setPart p x).time = s.time := rfl
@[simp] theorem State.setPart_port0 (p : Nat) (x : Part) : (s.setPart p x).port0 = s.port0 := rfl
@[simp] theorem State.setPart_port1 (p : Nat) (x : Part) : (s.setPart p x).port1 = s.port1 := rfl
@[simp] theorem State.setPart_steward (p : Nat) (x : Part) : (s.setPart p x).steward = s.steward := rfl
@[simp] theorem State.setPart_bup (p : Nat) (x : Part) : (s.setPart p x).bup = s.bup := rfl
@[simp] theorem State.setPart_glow (p : Nat) (x : Part) : (s.setPart p x).glow = s.glow := rfl
@[simp] theorem State.setPart_therm (p : Nat) (x : Part) : (s.setPart p x).therm = s.therm := rfl
@[simp] theorem State.setPart_sec (p : Nat) (x : Part) : (s.setPart p x).sec = s.sec := rfl
@[simp] theorem State.setPart_cairn (p : Nat) (x : Part) : (s.setPart p x).cairn = s.cairn := rfl
@[simp] theorem State.setPart_guest (p : Nat) (x : Part) : (s.setPart p x).guest = s.guest := rfl
@[simp] theorem State.setPart_ridge (p : Nat) (x : Part) : (s.setPart p x).ridge = s.ridge := rfl

@[simp] theorem State.updPart_pending (p : Nat) (f : Part → Part) : (s.updPart p f).pending = s.pending := rfl
@[simp] theorem State.updPart_free (p : Nat) (f : Part → Part) : (s.updPart p f).free = s.free := rfl
@[simp] theorem State.updPart_flt (p : Nat) (f : Part → Part) : (s.updPart p f).flt = s.flt := rfl
@[simp] theorem State.updPart_sent (p : Nat) (f : Part → Part) : (s.updPart p f).sent = s.sent := rfl
@[simp] theorem State.updPart_cyc (p : Nat) (f : Part → Part) : (s.updPart p f).cyc = s.cyc := rfl
@[simp] theorem State.updPart_markCyc (p : Nat) (f : Part → Part) : (s.updPart p f).markCyc = s.markCyc := rfl
@[simp] theorem State.updPart_regs (p : Nat) (f : Part → Part) : (s.updPart p f).regs = s.regs := rfl
@[simp] theorem State.updPart_eff (p : Nat) (f : Part → Part) : (s.updPart p f).eff = s.eff := rfl
@[simp] theorem State.updPart_tiles (p : Nat) (f : Part → Part) : (s.updPart p f).tiles = s.tiles := rfl
@[simp] theorem State.updPart_roost (p : Nat) (f : Part → Part) : (s.updPart p f).roost = s.roost := rfl
@[simp] theorem State.updPart_resetAt (p : Nat) (f : Part → Part) : (s.updPart p f).resetAt = s.resetAt := rfl
@[simp] theorem State.updPart_grt (p : Nat) (f : Part → Part) : (s.updPart p f).grt = s.grt := rfl
@[simp] theorem State.updPart_hv (p : Nat) (f : Part → Part) : (s.updPart p f).hv = s.hv := rfl
@[simp] theorem State.updPart_hvSat (p : Nat) (f : Part → Part) : (s.updPart p f).hvSat = s.hvSat := rfl
@[simp] theorem State.updPart_hvWas (p : Nat) (f : Part → Part) : (s.updPart p f).hvWas = s.hvWas := rfl
@[simp] theorem State.updPart_boards (p : Nat) (f : Part → Part) : (s.updPart p f).boards = s.boards := rfl
@[simp] theorem State.updPart_cores (p : Nat) (f : Part → Part) : (s.updPart p f).cores = s.cores := rfl
@[simp] theorem State.updPart_adds (p : Nat) (f : Part → Part) : (s.updPart p f).adds = s.adds := rfl
@[simp] theorem State.updPart_memStacks (p : Nat) (f : Part → Part) : (s.updPart p f).memStacks = s.memStacks := rfl
@[simp] theorem State.updPart_mem (p : Nat) (f : Part → Part) : (s.updPart p f).mem = s.mem := rfl
@[simp] theorem State.updPart_hostMem0 (p : Nat) (f : Part → Part) : (s.updPart p f).hostMem0 = s.hostMem0 := rfl
@[simp] theorem State.updPart_hostMem1 (p : Nat) (f : Part → Part) : (s.updPart p f).hostMem1 = s.hostMem1 := rfl
@[simp] theorem State.updPart_guestMem (p : Nat) (f : Part → Part) : (s.updPart p f).guestMem = s.guestMem := rfl
@[simp] theorem State.updPart_ecc (p : Nat) (f : Part → Part) : (s.updPart p f).ecc = s.ecc := rfl
@[simp] theorem State.updPart_walks (p : Nat) (f : Part → Part) : (s.updPart p f).walks = s.walks := rfl
@[simp] theorem State.updPart_arrivals (p : Nat) (f : Part → Part) : (s.updPart p f).arrivals = s.arrivals := rfl
@[simp] theorem State.updPart_links (p : Nat) (f : Part → Part) : (s.updPart p f).links = s.links := rfl
@[simp] theorem State.updPart_deliveries (p : Nat) (f : Part → Part) : (s.updPart p f).deliveries = s.deliveries := rfl
@[simp] theorem State.updPart_time (p : Nat) (f : Part → Part) : (s.updPart p f).time = s.time := rfl
@[simp] theorem State.updPart_port0 (p : Nat) (f : Part → Part) : (s.updPart p f).port0 = s.port0 := rfl
@[simp] theorem State.updPart_port1 (p : Nat) (f : Part → Part) : (s.updPart p f).port1 = s.port1 := rfl
@[simp] theorem State.updPart_steward (p : Nat) (f : Part → Part) : (s.updPart p f).steward = s.steward := rfl
@[simp] theorem State.updPart_bup (p : Nat) (f : Part → Part) : (s.updPart p f).bup = s.bup := rfl
@[simp] theorem State.updPart_glow (p : Nat) (f : Part → Part) : (s.updPart p f).glow = s.glow := rfl
@[simp] theorem State.updPart_therm (p : Nat) (f : Part → Part) : (s.updPart p f).therm = s.therm := rfl
@[simp] theorem State.updPart_sec (p : Nat) (f : Part → Part) : (s.updPart p f).sec = s.sec := rfl
@[simp] theorem State.updPart_cairn (p : Nat) (f : Part → Part) : (s.updPart p f).cairn = s.cairn := rfl
@[simp] theorem State.updPart_guest (p : Nat) (f : Part → Part) : (s.updPart p f).guest = s.guest := rfl
@[simp] theorem State.updPart_ridge (p : Nat) (f : Part → Part) : (s.updPart p f).ridge = s.ridge := rfl

@[simp] theorem State.setStack_pending (k : Nat) (x : Stack) : (s.setStack k x).pending = s.pending := rfl
@[simp] theorem State.setStack_free (k : Nat) (x : Stack) : (s.setStack k x).free = s.free := rfl
@[simp] theorem State.setStack_flt (k : Nat) (x : Stack) : (s.setStack k x).flt = s.flt := rfl
@[simp] theorem State.setStack_sent (k : Nat) (x : Stack) : (s.setStack k x).sent = s.sent := rfl
@[simp] theorem State.setStack_cyc (k : Nat) (x : Stack) : (s.setStack k x).cyc = s.cyc := rfl
@[simp] theorem State.setStack_markCyc (k : Nat) (x : Stack) : (s.setStack k x).markCyc = s.markCyc := rfl
@[simp] theorem State.setStack_regs (k : Nat) (x : Stack) : (s.setStack k x).regs = s.regs := rfl
@[simp] theorem State.setStack_eff (k : Nat) (x : Stack) : (s.setStack k x).eff = s.eff := rfl
@[simp] theorem State.setStack_tiles (k : Nat) (x : Stack) : (s.setStack k x).tiles = s.tiles := rfl
@[simp] theorem State.setStack_roost (k : Nat) (x : Stack) : (s.setStack k x).roost = s.roost := rfl
@[simp] theorem State.setStack_resetAt (k : Nat) (x : Stack) : (s.setStack k x).resetAt = s.resetAt := rfl
@[simp] theorem State.setStack_grt (k : Nat) (x : Stack) : (s.setStack k x).grt = s.grt := rfl
@[simp] theorem State.setStack_hv (k : Nat) (x : Stack) : (s.setStack k x).hv = s.hv := rfl
@[simp] theorem State.setStack_hvSat (k : Nat) (x : Stack) : (s.setStack k x).hvSat = s.hvSat := rfl
@[simp] theorem State.setStack_hvWas (k : Nat) (x : Stack) : (s.setStack k x).hvWas = s.hvWas := rfl
@[simp] theorem State.setStack_boards (k : Nat) (x : Stack) : (s.setStack k x).boards = s.boards := rfl
@[simp] theorem State.setStack_cores (k : Nat) (x : Stack) : (s.setStack k x).cores = s.cores := rfl
@[simp] theorem State.setStack_adds (k : Nat) (x : Stack) : (s.setStack k x).adds = s.adds := rfl
@[simp] theorem State.setStack_parts (k : Nat) (x : Stack) : (s.setStack k x).parts = s.parts := rfl
@[simp] theorem State.setStack_mem (k : Nat) (x : Stack) : (s.setStack k x).mem = s.mem := rfl
@[simp] theorem State.setStack_hostMem0 (k : Nat) (x : Stack) : (s.setStack k x).hostMem0 = s.hostMem0 := rfl
@[simp] theorem State.setStack_hostMem1 (k : Nat) (x : Stack) : (s.setStack k x).hostMem1 = s.hostMem1 := rfl
@[simp] theorem State.setStack_guestMem (k : Nat) (x : Stack) : (s.setStack k x).guestMem = s.guestMem := rfl
@[simp] theorem State.setStack_ecc (k : Nat) (x : Stack) : (s.setStack k x).ecc = s.ecc := rfl
@[simp] theorem State.setStack_walks (k : Nat) (x : Stack) : (s.setStack k x).walks = s.walks := rfl
@[simp] theorem State.setStack_arrivals (k : Nat) (x : Stack) : (s.setStack k x).arrivals = s.arrivals := rfl
@[simp] theorem State.setStack_links (k : Nat) (x : Stack) : (s.setStack k x).links = s.links := rfl
@[simp] theorem State.setStack_deliveries (k : Nat) (x : Stack) : (s.setStack k x).deliveries = s.deliveries := rfl
@[simp] theorem State.setStack_time (k : Nat) (x : Stack) : (s.setStack k x).time = s.time := rfl
@[simp] theorem State.setStack_port0 (k : Nat) (x : Stack) : (s.setStack k x).port0 = s.port0 := rfl
@[simp] theorem State.setStack_port1 (k : Nat) (x : Stack) : (s.setStack k x).port1 = s.port1 := rfl
@[simp] theorem State.setStack_steward (k : Nat) (x : Stack) : (s.setStack k x).steward = s.steward := rfl
@[simp] theorem State.setStack_bup (k : Nat) (x : Stack) : (s.setStack k x).bup = s.bup := rfl
@[simp] theorem State.setStack_glow (k : Nat) (x : Stack) : (s.setStack k x).glow = s.glow := rfl
@[simp] theorem State.setStack_therm (k : Nat) (x : Stack) : (s.setStack k x).therm = s.therm := rfl
@[simp] theorem State.setStack_sec (k : Nat) (x : Stack) : (s.setStack k x).sec = s.sec := rfl
@[simp] theorem State.setStack_cairn (k : Nat) (x : Stack) : (s.setStack k x).cairn = s.cairn := rfl
@[simp] theorem State.setStack_guest (k : Nat) (x : Stack) : (s.setStack k x).guest = s.guest := rfl
@[simp] theorem State.setStack_ridge (k : Nat) (x : Stack) : (s.setStack k x).ridge = s.ridge := rfl

@[simp] theorem State.setLink_pending (l : Nat) (x : Link) : (s.setLink l x).pending = s.pending := rfl
@[simp] theorem State.setLink_free (l : Nat) (x : Link) : (s.setLink l x).free = s.free := rfl
@[simp] theorem State.setLink_flt (l : Nat) (x : Link) : (s.setLink l x).flt = s.flt := rfl
@[simp] theorem State.setLink_sent (l : Nat) (x : Link) : (s.setLink l x).sent = s.sent := rfl
@[simp] theorem State.setLink_cyc (l : Nat) (x : Link) : (s.setLink l x).cyc = s.cyc := rfl
@[simp] theorem State.setLink_markCyc (l : Nat) (x : Link) : (s.setLink l x).markCyc = s.markCyc := rfl
@[simp] theorem State.setLink_regs (l : Nat) (x : Link) : (s.setLink l x).regs = s.regs := rfl
@[simp] theorem State.setLink_eff (l : Nat) (x : Link) : (s.setLink l x).eff = s.eff := rfl
@[simp] theorem State.setLink_tiles (l : Nat) (x : Link) : (s.setLink l x).tiles = s.tiles := rfl
@[simp] theorem State.setLink_roost (l : Nat) (x : Link) : (s.setLink l x).roost = s.roost := rfl
@[simp] theorem State.setLink_resetAt (l : Nat) (x : Link) : (s.setLink l x).resetAt = s.resetAt := rfl
@[simp] theorem State.setLink_grt (l : Nat) (x : Link) : (s.setLink l x).grt = s.grt := rfl
@[simp] theorem State.setLink_hv (l : Nat) (x : Link) : (s.setLink l x).hv = s.hv := rfl
@[simp] theorem State.setLink_hvSat (l : Nat) (x : Link) : (s.setLink l x).hvSat = s.hvSat := rfl
@[simp] theorem State.setLink_hvWas (l : Nat) (x : Link) : (s.setLink l x).hvWas = s.hvWas := rfl
@[simp] theorem State.setLink_boards (l : Nat) (x : Link) : (s.setLink l x).boards = s.boards := rfl
@[simp] theorem State.setLink_cores (l : Nat) (x : Link) : (s.setLink l x).cores = s.cores := rfl
@[simp] theorem State.setLink_adds (l : Nat) (x : Link) : (s.setLink l x).adds = s.adds := rfl
@[simp] theorem State.setLink_parts (l : Nat) (x : Link) : (s.setLink l x).parts = s.parts := rfl
@[simp] theorem State.setLink_memStacks (l : Nat) (x : Link) : (s.setLink l x).memStacks = s.memStacks := rfl
@[simp] theorem State.setLink_mem (l : Nat) (x : Link) : (s.setLink l x).mem = s.mem := rfl
@[simp] theorem State.setLink_hostMem0 (l : Nat) (x : Link) : (s.setLink l x).hostMem0 = s.hostMem0 := rfl
@[simp] theorem State.setLink_hostMem1 (l : Nat) (x : Link) : (s.setLink l x).hostMem1 = s.hostMem1 := rfl
@[simp] theorem State.setLink_guestMem (l : Nat) (x : Link) : (s.setLink l x).guestMem = s.guestMem := rfl
@[simp] theorem State.setLink_ecc (l : Nat) (x : Link) : (s.setLink l x).ecc = s.ecc := rfl
@[simp] theorem State.setLink_walks (l : Nat) (x : Link) : (s.setLink l x).walks = s.walks := rfl
@[simp] theorem State.setLink_arrivals (l : Nat) (x : Link) : (s.setLink l x).arrivals = s.arrivals := rfl
@[simp] theorem State.setLink_deliveries (l : Nat) (x : Link) : (s.setLink l x).deliveries = s.deliveries := rfl
@[simp] theorem State.setLink_time (l : Nat) (x : Link) : (s.setLink l x).time = s.time := rfl
@[simp] theorem State.setLink_port0 (l : Nat) (x : Link) : (s.setLink l x).port0 = s.port0 := rfl
@[simp] theorem State.setLink_port1 (l : Nat) (x : Link) : (s.setLink l x).port1 = s.port1 := rfl
@[simp] theorem State.setLink_steward (l : Nat) (x : Link) : (s.setLink l x).steward = s.steward := rfl
@[simp] theorem State.setLink_bup (l : Nat) (x : Link) : (s.setLink l x).bup = s.bup := rfl
@[simp] theorem State.setLink_glow (l : Nat) (x : Link) : (s.setLink l x).glow = s.glow := rfl
@[simp] theorem State.setLink_therm (l : Nat) (x : Link) : (s.setLink l x).therm = s.therm := rfl
@[simp] theorem State.setLink_sec (l : Nat) (x : Link) : (s.setLink l x).sec = s.sec := rfl
@[simp] theorem State.setLink_cairn (l : Nat) (x : Link) : (s.setLink l x).cairn = s.cairn := rfl
@[simp] theorem State.setLink_guest (l : Nat) (x : Link) : (s.setLink l x).guest = s.guest := rfl
@[simp] theorem State.setLink_ridge (l : Nat) (x : Link) : (s.setLink l x).ridge = s.ridge := rfl

@[simp] theorem State.setRidge_pending (m : Nat) (x : Ridge) : (s.setRidge m x).pending = s.pending := rfl
@[simp] theorem State.setRidge_free (m : Nat) (x : Ridge) : (s.setRidge m x).free = s.free := rfl
@[simp] theorem State.setRidge_flt (m : Nat) (x : Ridge) : (s.setRidge m x).flt = s.flt := rfl
@[simp] theorem State.setRidge_sent (m : Nat) (x : Ridge) : (s.setRidge m x).sent = s.sent := rfl
@[simp] theorem State.setRidge_cyc (m : Nat) (x : Ridge) : (s.setRidge m x).cyc = s.cyc := rfl
@[simp] theorem State.setRidge_markCyc (m : Nat) (x : Ridge) : (s.setRidge m x).markCyc = s.markCyc := rfl
@[simp] theorem State.setRidge_regs (m : Nat) (x : Ridge) : (s.setRidge m x).regs = s.regs := rfl
@[simp] theorem State.setRidge_eff (m : Nat) (x : Ridge) : (s.setRidge m x).eff = s.eff := rfl
@[simp] theorem State.setRidge_tiles (m : Nat) (x : Ridge) : (s.setRidge m x).tiles = s.tiles := rfl
@[simp] theorem State.setRidge_roost (m : Nat) (x : Ridge) : (s.setRidge m x).roost = s.roost := rfl
@[simp] theorem State.setRidge_resetAt (m : Nat) (x : Ridge) : (s.setRidge m x).resetAt = s.resetAt := rfl
@[simp] theorem State.setRidge_grt (m : Nat) (x : Ridge) : (s.setRidge m x).grt = s.grt := rfl
@[simp] theorem State.setRidge_hv (m : Nat) (x : Ridge) : (s.setRidge m x).hv = s.hv := rfl
@[simp] theorem State.setRidge_hvSat (m : Nat) (x : Ridge) : (s.setRidge m x).hvSat = s.hvSat := rfl
@[simp] theorem State.setRidge_hvWas (m : Nat) (x : Ridge) : (s.setRidge m x).hvWas = s.hvWas := rfl
@[simp] theorem State.setRidge_boards (m : Nat) (x : Ridge) : (s.setRidge m x).boards = s.boards := rfl
@[simp] theorem State.setRidge_cores (m : Nat) (x : Ridge) : (s.setRidge m x).cores = s.cores := rfl
@[simp] theorem State.setRidge_adds (m : Nat) (x : Ridge) : (s.setRidge m x).adds = s.adds := rfl
@[simp] theorem State.setRidge_parts (m : Nat) (x : Ridge) : (s.setRidge m x).parts = s.parts := rfl
@[simp] theorem State.setRidge_memStacks (m : Nat) (x : Ridge) : (s.setRidge m x).memStacks = s.memStacks := rfl
@[simp] theorem State.setRidge_mem (m : Nat) (x : Ridge) : (s.setRidge m x).mem = s.mem := rfl
@[simp] theorem State.setRidge_hostMem0 (m : Nat) (x : Ridge) : (s.setRidge m x).hostMem0 = s.hostMem0 := rfl
@[simp] theorem State.setRidge_hostMem1 (m : Nat) (x : Ridge) : (s.setRidge m x).hostMem1 = s.hostMem1 := rfl
@[simp] theorem State.setRidge_guestMem (m : Nat) (x : Ridge) : (s.setRidge m x).guestMem = s.guestMem := rfl
@[simp] theorem State.setRidge_ecc (m : Nat) (x : Ridge) : (s.setRidge m x).ecc = s.ecc := rfl
@[simp] theorem State.setRidge_walks (m : Nat) (x : Ridge) : (s.setRidge m x).walks = s.walks := rfl
@[simp] theorem State.setRidge_arrivals (m : Nat) (x : Ridge) : (s.setRidge m x).arrivals = s.arrivals := rfl
@[simp] theorem State.setRidge_links (m : Nat) (x : Ridge) : (s.setRidge m x).links = s.links := rfl
@[simp] theorem State.setRidge_deliveries (m : Nat) (x : Ridge) : (s.setRidge m x).deliveries = s.deliveries := rfl
@[simp] theorem State.setRidge_time (m : Nat) (x : Ridge) : (s.setRidge m x).time = s.time := rfl
@[simp] theorem State.setRidge_port0 (m : Nat) (x : Ridge) : (s.setRidge m x).port0 = s.port0 := rfl
@[simp] theorem State.setRidge_port1 (m : Nat) (x : Ridge) : (s.setRidge m x).port1 = s.port1 := rfl
@[simp] theorem State.setRidge_steward (m : Nat) (x : Ridge) : (s.setRidge m x).steward = s.steward := rfl
@[simp] theorem State.setRidge_bup (m : Nat) (x : Ridge) : (s.setRidge m x).bup = s.bup := rfl
@[simp] theorem State.setRidge_glow (m : Nat) (x : Ridge) : (s.setRidge m x).glow = s.glow := rfl
@[simp] theorem State.setRidge_therm (m : Nat) (x : Ridge) : (s.setRidge m x).therm = s.therm := rfl
@[simp] theorem State.setRidge_sec (m : Nat) (x : Ridge) : (s.setRidge m x).sec = s.sec := rfl
@[simp] theorem State.setRidge_cairn (m : Nat) (x : Ridge) : (s.setRidge m x).cairn = s.cairn := rfl
@[simp] theorem State.setRidge_guest (m : Nat) (x : Ridge) : (s.setRidge m x).guest = s.guest := rfl

@[simp] theorem State.setPort_pending (b : Bool) (x : Port) : (s.setPort b x).pending = s.pending := by cases b <;> rfl
@[simp] theorem State.setPort_free (b : Bool) (x : Port) : (s.setPort b x).free = s.free := by cases b <;> rfl
@[simp] theorem State.setPort_flt (b : Bool) (x : Port) : (s.setPort b x).flt = s.flt := by cases b <;> rfl
@[simp] theorem State.setPort_sent (b : Bool) (x : Port) : (s.setPort b x).sent = s.sent := by cases b <;> rfl
@[simp] theorem State.setPort_cyc (b : Bool) (x : Port) : (s.setPort b x).cyc = s.cyc := by cases b <;> rfl
@[simp] theorem State.setPort_markCyc (b : Bool) (x : Port) : (s.setPort b x).markCyc = s.markCyc := by cases b <;> rfl
@[simp] theorem State.setPort_regs (b : Bool) (x : Port) : (s.setPort b x).regs = s.regs := by cases b <;> rfl
@[simp] theorem State.setPort_eff (b : Bool) (x : Port) : (s.setPort b x).eff = s.eff := by cases b <;> rfl
@[simp] theorem State.setPort_tiles (b : Bool) (x : Port) : (s.setPort b x).tiles = s.tiles := by cases b <;> rfl
@[simp] theorem State.setPort_roost (b : Bool) (x : Port) : (s.setPort b x).roost = s.roost := by cases b <;> rfl
@[simp] theorem State.setPort_resetAt (b : Bool) (x : Port) : (s.setPort b x).resetAt = s.resetAt := by cases b <;> rfl
@[simp] theorem State.setPort_grt (b : Bool) (x : Port) : (s.setPort b x).grt = s.grt := by cases b <;> rfl
@[simp] theorem State.setPort_hv (b : Bool) (x : Port) : (s.setPort b x).hv = s.hv := by cases b <;> rfl
@[simp] theorem State.setPort_hvSat (b : Bool) (x : Port) : (s.setPort b x).hvSat = s.hvSat := by cases b <;> rfl
@[simp] theorem State.setPort_hvWas (b : Bool) (x : Port) : (s.setPort b x).hvWas = s.hvWas := by cases b <;> rfl
@[simp] theorem State.setPort_boards (b : Bool) (x : Port) : (s.setPort b x).boards = s.boards := by cases b <;> rfl
@[simp] theorem State.setPort_cores (b : Bool) (x : Port) : (s.setPort b x).cores = s.cores := by cases b <;> rfl
@[simp] theorem State.setPort_adds (b : Bool) (x : Port) : (s.setPort b x).adds = s.adds := by cases b <;> rfl
@[simp] theorem State.setPort_parts (b : Bool) (x : Port) : (s.setPort b x).parts = s.parts := by cases b <;> rfl
@[simp] theorem State.setPort_memStacks (b : Bool) (x : Port) : (s.setPort b x).memStacks = s.memStacks := by cases b <;> rfl
@[simp] theorem State.setPort_mem (b : Bool) (x : Port) : (s.setPort b x).mem = s.mem := by cases b <;> rfl
@[simp] theorem State.setPort_hostMem0 (b : Bool) (x : Port) : (s.setPort b x).hostMem0 = s.hostMem0 := by cases b <;> rfl
@[simp] theorem State.setPort_hostMem1 (b : Bool) (x : Port) : (s.setPort b x).hostMem1 = s.hostMem1 := by cases b <;> rfl
@[simp] theorem State.setPort_guestMem (b : Bool) (x : Port) : (s.setPort b x).guestMem = s.guestMem := by cases b <;> rfl
@[simp] theorem State.setPort_ecc (b : Bool) (x : Port) : (s.setPort b x).ecc = s.ecc := by cases b <;> rfl
@[simp] theorem State.setPort_walks (b : Bool) (x : Port) : (s.setPort b x).walks = s.walks := by cases b <;> rfl
@[simp] theorem State.setPort_arrivals (b : Bool) (x : Port) : (s.setPort b x).arrivals = s.arrivals := by cases b <;> rfl
@[simp] theorem State.setPort_links (b : Bool) (x : Port) : (s.setPort b x).links = s.links := by cases b <;> rfl
@[simp] theorem State.setPort_deliveries (b : Bool) (x : Port) : (s.setPort b x).deliveries = s.deliveries := by cases b <;> rfl
@[simp] theorem State.setPort_time (b : Bool) (x : Port) : (s.setPort b x).time = s.time := by cases b <;> rfl
@[simp] theorem State.setPort_steward (b : Bool) (x : Port) : (s.setPort b x).steward = s.steward := by cases b <;> rfl
@[simp] theorem State.setPort_bup (b : Bool) (x : Port) : (s.setPort b x).bup = s.bup := by cases b <;> rfl
@[simp] theorem State.setPort_glow (b : Bool) (x : Port) : (s.setPort b x).glow = s.glow := by cases b <;> rfl
@[simp] theorem State.setPort_therm (b : Bool) (x : Port) : (s.setPort b x).therm = s.therm := by cases b <;> rfl
@[simp] theorem State.setPort_sec (b : Bool) (x : Port) : (s.setPort b x).sec = s.sec := by cases b <;> rfl
@[simp] theorem State.setPort_cairn (b : Bool) (x : Port) : (s.setPort b x).cairn = s.cairn := by cases b <;> rfl
@[simp] theorem State.setPort_guest (b : Bool) (x : Port) : (s.setPort b x).guest = s.guest := by cases b <;> rfl
@[simp] theorem State.setPort_ridge (b : Bool) (x : Port) : (s.setPort b x).ridge = s.ridge := by cases b <;> rfl

@[simp] theorem State.setHostMem_pending (b : Bool) (m : Mem) : (s.setHostMem b m).pending = s.pending := by cases b <;> rfl
@[simp] theorem State.setHostMem_free (b : Bool) (m : Mem) : (s.setHostMem b m).free = s.free := by cases b <;> rfl
@[simp] theorem State.setHostMem_flt (b : Bool) (m : Mem) : (s.setHostMem b m).flt = s.flt := by cases b <;> rfl
@[simp] theorem State.setHostMem_sent (b : Bool) (m : Mem) : (s.setHostMem b m).sent = s.sent := by cases b <;> rfl
@[simp] theorem State.setHostMem_cyc (b : Bool) (m : Mem) : (s.setHostMem b m).cyc = s.cyc := by cases b <;> rfl
@[simp] theorem State.setHostMem_markCyc (b : Bool) (m : Mem) : (s.setHostMem b m).markCyc = s.markCyc := by cases b <;> rfl
@[simp] theorem State.setHostMem_regs (b : Bool) (m : Mem) : (s.setHostMem b m).regs = s.regs := by cases b <;> rfl
@[simp] theorem State.setHostMem_eff (b : Bool) (m : Mem) : (s.setHostMem b m).eff = s.eff := by cases b <;> rfl
@[simp] theorem State.setHostMem_tiles (b : Bool) (m : Mem) : (s.setHostMem b m).tiles = s.tiles := by cases b <;> rfl
@[simp] theorem State.setHostMem_roost (b : Bool) (m : Mem) : (s.setHostMem b m).roost = s.roost := by cases b <;> rfl
@[simp] theorem State.setHostMem_resetAt (b : Bool) (m : Mem) : (s.setHostMem b m).resetAt = s.resetAt := by cases b <;> rfl
@[simp] theorem State.setHostMem_grt (b : Bool) (m : Mem) : (s.setHostMem b m).grt = s.grt := by cases b <;> rfl
@[simp] theorem State.setHostMem_hv (b : Bool) (m : Mem) : (s.setHostMem b m).hv = s.hv := by cases b <;> rfl
@[simp] theorem State.setHostMem_hvSat (b : Bool) (m : Mem) : (s.setHostMem b m).hvSat = s.hvSat := by cases b <;> rfl
@[simp] theorem State.setHostMem_hvWas (b : Bool) (m : Mem) : (s.setHostMem b m).hvWas = s.hvWas := by cases b <;> rfl
@[simp] theorem State.setHostMem_boards (b : Bool) (m : Mem) : (s.setHostMem b m).boards = s.boards := by cases b <;> rfl
@[simp] theorem State.setHostMem_cores (b : Bool) (m : Mem) : (s.setHostMem b m).cores = s.cores := by cases b <;> rfl
@[simp] theorem State.setHostMem_adds (b : Bool) (m : Mem) : (s.setHostMem b m).adds = s.adds := by cases b <;> rfl
@[simp] theorem State.setHostMem_parts (b : Bool) (m : Mem) : (s.setHostMem b m).parts = s.parts := by cases b <;> rfl
@[simp] theorem State.setHostMem_memStacks (b : Bool) (m : Mem) : (s.setHostMem b m).memStacks = s.memStacks := by cases b <;> rfl
@[simp] theorem State.setHostMem_mem (b : Bool) (m : Mem) : (s.setHostMem b m).mem = s.mem := by cases b <;> rfl
@[simp] theorem State.setHostMem_guestMem (b : Bool) (m : Mem) : (s.setHostMem b m).guestMem = s.guestMem := by cases b <;> rfl
@[simp] theorem State.setHostMem_ecc (b : Bool) (m : Mem) : (s.setHostMem b m).ecc = s.ecc := by cases b <;> rfl
@[simp] theorem State.setHostMem_walks (b : Bool) (m : Mem) : (s.setHostMem b m).walks = s.walks := by cases b <;> rfl
@[simp] theorem State.setHostMem_arrivals (b : Bool) (m : Mem) : (s.setHostMem b m).arrivals = s.arrivals := by cases b <;> rfl
@[simp] theorem State.setHostMem_links (b : Bool) (m : Mem) : (s.setHostMem b m).links = s.links := by cases b <;> rfl
@[simp] theorem State.setHostMem_deliveries (b : Bool) (m : Mem) : (s.setHostMem b m).deliveries = s.deliveries := by cases b <;> rfl
@[simp] theorem State.setHostMem_time (b : Bool) (m : Mem) : (s.setHostMem b m).time = s.time := by cases b <;> rfl
@[simp] theorem State.setHostMem_port0 (b : Bool) (m : Mem) : (s.setHostMem b m).port0 = s.port0 := by cases b <;> rfl
@[simp] theorem State.setHostMem_port1 (b : Bool) (m : Mem) : (s.setHostMem b m).port1 = s.port1 := by cases b <;> rfl
@[simp] theorem State.setHostMem_steward (b : Bool) (m : Mem) : (s.setHostMem b m).steward = s.steward := by cases b <;> rfl
@[simp] theorem State.setHostMem_bup (b : Bool) (m : Mem) : (s.setHostMem b m).bup = s.bup := by cases b <;> rfl
@[simp] theorem State.setHostMem_glow (b : Bool) (m : Mem) : (s.setHostMem b m).glow = s.glow := by cases b <;> rfl
@[simp] theorem State.setHostMem_therm (b : Bool) (m : Mem) : (s.setHostMem b m).therm = s.therm := by cases b <;> rfl
@[simp] theorem State.setHostMem_sec (b : Bool) (m : Mem) : (s.setHostMem b m).sec = s.sec := by cases b <;> rfl
@[simp] theorem State.setHostMem_cairn (b : Bool) (m : Mem) : (s.setHostMem b m).cairn = s.cairn := by cases b <;> rfl
@[simp] theorem State.setHostMem_guest (b : Bool) (m : Mem) : (s.setHostMem b m).guest = s.guest := by cases b <;> rfl
@[simp] theorem State.setHostMem_ridge (b : Bool) (m : Mem) : (s.setHostMem b m).ridge = s.ridge := by cases b <;> rfl

@[simp] theorem State.send_pending (m : Msg) : (s.send m).pending = s.pending := rfl
@[simp] theorem State.send_free (m : Msg) : (s.send m).free = s.free := rfl
@[simp] theorem State.send_flt (m : Msg) : (s.send m).flt = s.flt := rfl
@[simp] theorem State.send_cyc (m : Msg) : (s.send m).cyc = s.cyc := rfl
@[simp] theorem State.send_markCyc (m : Msg) : (s.send m).markCyc = s.markCyc := rfl
@[simp] theorem State.send_regs (m : Msg) : (s.send m).regs = s.regs := rfl
@[simp] theorem State.send_eff (m : Msg) : (s.send m).eff = s.eff := rfl
@[simp] theorem State.send_tiles (m : Msg) : (s.send m).tiles = s.tiles := rfl
@[simp] theorem State.send_roost (m : Msg) : (s.send m).roost = s.roost := rfl
@[simp] theorem State.send_resetAt (m : Msg) : (s.send m).resetAt = s.resetAt := rfl
@[simp] theorem State.send_grt (m : Msg) : (s.send m).grt = s.grt := rfl
@[simp] theorem State.send_hv (m : Msg) : (s.send m).hv = s.hv := rfl
@[simp] theorem State.send_hvSat (m : Msg) : (s.send m).hvSat = s.hvSat := rfl
@[simp] theorem State.send_hvWas (m : Msg) : (s.send m).hvWas = s.hvWas := rfl
@[simp] theorem State.send_boards (m : Msg) : (s.send m).boards = s.boards := rfl
@[simp] theorem State.send_cores (m : Msg) : (s.send m).cores = s.cores := rfl
@[simp] theorem State.send_adds (m : Msg) : (s.send m).adds = s.adds := rfl
@[simp] theorem State.send_parts (m : Msg) : (s.send m).parts = s.parts := rfl
@[simp] theorem State.send_memStacks (m : Msg) : (s.send m).memStacks = s.memStacks := rfl
@[simp] theorem State.send_mem (m : Msg) : (s.send m).mem = s.mem := rfl
@[simp] theorem State.send_hostMem0 (m : Msg) : (s.send m).hostMem0 = s.hostMem0 := rfl
@[simp] theorem State.send_hostMem1 (m : Msg) : (s.send m).hostMem1 = s.hostMem1 := rfl
@[simp] theorem State.send_guestMem (m : Msg) : (s.send m).guestMem = s.guestMem := rfl
@[simp] theorem State.send_ecc (m : Msg) : (s.send m).ecc = s.ecc := rfl
@[simp] theorem State.send_walks (m : Msg) : (s.send m).walks = s.walks := rfl
@[simp] theorem State.send_arrivals (m : Msg) : (s.send m).arrivals = s.arrivals := rfl
@[simp] theorem State.send_links (m : Msg) : (s.send m).links = s.links := rfl
@[simp] theorem State.send_deliveries (m : Msg) : (s.send m).deliveries = s.deliveries := rfl
@[simp] theorem State.send_time (m : Msg) : (s.send m).time = s.time := rfl
@[simp] theorem State.send_port0 (m : Msg) : (s.send m).port0 = s.port0 := rfl
@[simp] theorem State.send_port1 (m : Msg) : (s.send m).port1 = s.port1 := rfl
@[simp] theorem State.send_steward (m : Msg) : (s.send m).steward = s.steward := rfl
@[simp] theorem State.send_bup (m : Msg) : (s.send m).bup = s.bup := rfl
@[simp] theorem State.send_glow (m : Msg) : (s.send m).glow = s.glow := rfl
@[simp] theorem State.send_therm (m : Msg) : (s.send m).therm = s.therm := rfl
@[simp] theorem State.send_sec (m : Msg) : (s.send m).sec = s.sec := rfl
@[simp] theorem State.send_cairn (m : Msg) : (s.send m).cairn = s.cairn := rfl
@[simp] theorem State.send_guest (m : Msg) : (s.send m).guest = s.guest := rfl
@[simp] theorem State.send_ridge (m : Msg) : (s.send m).ridge = s.ridge := rfl

@[simp] theorem State.upTo_cyc (c : Nat) : (s.upTo c).cyc = max s.cyc c := rfl
@[simp] theorem State.upTo_self : s.upTo s.cyc = s := by simp [State.upTo, State.timeAfter]
@[simp] theorem State.upTo_pending (c : Nat) : (s.upTo c).pending = s.pending := rfl
@[simp] theorem State.upTo_free (c : Nat) : (s.upTo c).free = s.free := rfl
@[simp] theorem State.upTo_flt (c : Nat) : (s.upTo c).flt = s.flt := rfl
@[simp] theorem State.upTo_sent (c : Nat) : (s.upTo c).sent = s.sent := rfl
@[simp] theorem State.upTo_markCyc (c : Nat) : (s.upTo c).markCyc = s.markCyc := rfl
@[simp] theorem State.upTo_regs (c : Nat) : (s.upTo c).regs = s.regs := rfl
@[simp] theorem State.upTo_eff (c : Nat) : (s.upTo c).eff = s.eff := rfl
@[simp] theorem State.upTo_tiles (c : Nat) : (s.upTo c).tiles = s.tiles := rfl
@[simp] theorem State.upTo_roost (c : Nat) : (s.upTo c).roost = s.roost := rfl
@[simp] theorem State.upTo_resetAt (c : Nat) : (s.upTo c).resetAt = s.resetAt := rfl
@[simp] theorem State.upTo_grt (c : Nat) : (s.upTo c).grt = s.grt := rfl
@[simp] theorem State.upTo_hv (c : Nat) : (s.upTo c).hv = s.hv := rfl
@[simp] theorem State.upTo_hvSat (c : Nat) : (s.upTo c).hvSat = s.hvSat := rfl
@[simp] theorem State.upTo_hvWas (c : Nat) : (s.upTo c).hvWas = s.hvWas := rfl
@[simp] theorem State.upTo_boards (c : Nat) : (s.upTo c).boards = s.boards := rfl
@[simp] theorem State.upTo_cores (c : Nat) : (s.upTo c).cores = s.cores := rfl
@[simp] theorem State.upTo_adds (c : Nat) : (s.upTo c).adds = s.adds := rfl
@[simp] theorem State.upTo_parts (c : Nat) : (s.upTo c).parts = s.parts := rfl
@[simp] theorem State.upTo_memStacks (c : Nat) : (s.upTo c).memStacks = s.memStacks := rfl
@[simp] theorem State.upTo_mem (c : Nat) : (s.upTo c).mem = s.mem := rfl
@[simp] theorem State.upTo_hostMem0 (c : Nat) : (s.upTo c).hostMem0 = s.hostMem0 := rfl
@[simp] theorem State.upTo_hostMem1 (c : Nat) : (s.upTo c).hostMem1 = s.hostMem1 := rfl
@[simp] theorem State.upTo_guestMem (c : Nat) : (s.upTo c).guestMem = s.guestMem := rfl
@[simp] theorem State.upTo_ecc (c : Nat) : (s.upTo c).ecc = s.ecc := rfl
@[simp] theorem State.upTo_walks (c : Nat) : (s.upTo c).walks = s.walks := rfl
@[simp] theorem State.upTo_arrivals (c : Nat) : (s.upTo c).arrivals = s.arrivals := rfl
@[simp] theorem State.upTo_links (c : Nat) : (s.upTo c).links = s.links := rfl
@[simp] theorem State.upTo_deliveries (c : Nat) : (s.upTo c).deliveries = s.deliveries := rfl
@[simp] theorem State.upTo_port0 (c : Nat) : (s.upTo c).port0 = s.port0 := rfl
@[simp] theorem State.upTo_port1 (c : Nat) : (s.upTo c).port1 = s.port1 := rfl
@[simp] theorem State.upTo_steward (c : Nat) : (s.upTo c).steward = s.steward := rfl
@[simp] theorem State.upTo_bup (c : Nat) : (s.upTo c).bup = s.bup := rfl
@[simp] theorem State.upTo_glow (c : Nat) : (s.upTo c).glow = s.glow := rfl
@[simp] theorem State.upTo_therm (c : Nat) : (s.upTo c).therm = s.therm := rfl
@[simp] theorem State.upTo_sec (c : Nat) : (s.upTo c).sec = s.sec := rfl
@[simp] theorem State.upTo_cairn (c : Nat) : (s.upTo c).cairn = s.cairn := rfl
@[simp] theorem State.upTo_guest (c : Nat) : (s.upTo c).guest = s.guest := rfl
@[simp] theorem State.upTo_ridge (c : Nat) : (s.upTo c).ridge = s.ridge := rfl

@[simp] theorem rset_pending (b : Blk) (o : Nat) (w : Word) : (rset s b o w).pending = s.pending := rfl
@[simp] theorem rset_free (b : Blk) (o : Nat) (w : Word) : (rset s b o w).free = s.free := rfl
@[simp] theorem rset_flt (b : Blk) (o : Nat) (w : Word) : (rset s b o w).flt = s.flt := rfl
@[simp] theorem rset_sent (b : Blk) (o : Nat) (w : Word) : (rset s b o w).sent = s.sent := rfl
@[simp] theorem rset_cyc (b : Blk) (o : Nat) (w : Word) : (rset s b o w).cyc = s.cyc := rfl
@[simp] theorem rset_markCyc (b : Blk) (o : Nat) (w : Word) : (rset s b o w).markCyc = s.markCyc := rfl
@[simp] theorem rset_eff (b : Blk) (o : Nat) (w : Word) : (rset s b o w).eff = s.eff := rfl
@[simp] theorem rset_tiles (b : Blk) (o : Nat) (w : Word) : (rset s b o w).tiles = s.tiles := rfl
@[simp] theorem rset_roost (b : Blk) (o : Nat) (w : Word) : (rset s b o w).roost = s.roost := rfl
@[simp] theorem rset_resetAt (b : Blk) (o : Nat) (w : Word) : (rset s b o w).resetAt = s.resetAt := rfl
@[simp] theorem rset_grt (b : Blk) (o : Nat) (w : Word) : (rset s b o w).grt = s.grt := rfl
@[simp] theorem rset_hv (b : Blk) (o : Nat) (w : Word) : (rset s b o w).hv = s.hv := rfl
@[simp] theorem rset_hvSat (b : Blk) (o : Nat) (w : Word) : (rset s b o w).hvSat = s.hvSat := rfl
@[simp] theorem rset_hvWas (b : Blk) (o : Nat) (w : Word) : (rset s b o w).hvWas = s.hvWas := rfl
@[simp] theorem rset_boards (b : Blk) (o : Nat) (w : Word) : (rset s b o w).boards = s.boards := rfl
@[simp] theorem rset_cores (b : Blk) (o : Nat) (w : Word) : (rset s b o w).cores = s.cores := rfl
@[simp] theorem rset_adds (b : Blk) (o : Nat) (w : Word) : (rset s b o w).adds = s.adds := rfl
@[simp] theorem rset_parts (b : Blk) (o : Nat) (w : Word) : (rset s b o w).parts = s.parts := rfl
@[simp] theorem rset_memStacks (b : Blk) (o : Nat) (w : Word) : (rset s b o w).memStacks = s.memStacks := rfl
@[simp] theorem rset_mem (b : Blk) (o : Nat) (w : Word) : (rset s b o w).mem = s.mem := rfl
@[simp] theorem rset_hostMem0 (b : Blk) (o : Nat) (w : Word) : (rset s b o w).hostMem0 = s.hostMem0 := rfl
@[simp] theorem rset_hostMem1 (b : Blk) (o : Nat) (w : Word) : (rset s b o w).hostMem1 = s.hostMem1 := rfl
@[simp] theorem rset_guestMem (b : Blk) (o : Nat) (w : Word) : (rset s b o w).guestMem = s.guestMem := rfl
@[simp] theorem rset_ecc (b : Blk) (o : Nat) (w : Word) : (rset s b o w).ecc = s.ecc := rfl
@[simp] theorem rset_walks (b : Blk) (o : Nat) (w : Word) : (rset s b o w).walks = s.walks := rfl
@[simp] theorem rset_arrivals (b : Blk) (o : Nat) (w : Word) : (rset s b o w).arrivals = s.arrivals := rfl
@[simp] theorem rset_links (b : Blk) (o : Nat) (w : Word) : (rset s b o w).links = s.links := rfl
@[simp] theorem rset_deliveries (b : Blk) (o : Nat) (w : Word) : (rset s b o w).deliveries = s.deliveries := rfl
@[simp] theorem rset_time (b : Blk) (o : Nat) (w : Word) : (rset s b o w).time = s.time := rfl
@[simp] theorem rset_port0 (b : Blk) (o : Nat) (w : Word) : (rset s b o w).port0 = s.port0 := rfl
@[simp] theorem rset_port1 (b : Blk) (o : Nat) (w : Word) : (rset s b o w).port1 = s.port1 := rfl
@[simp] theorem rset_steward (b : Blk) (o : Nat) (w : Word) : (rset s b o w).steward = s.steward := rfl
@[simp] theorem rset_bup (b : Blk) (o : Nat) (w : Word) : (rset s b o w).bup = s.bup := rfl
@[simp] theorem rset_glow (b : Blk) (o : Nat) (w : Word) : (rset s b o w).glow = s.glow := rfl
@[simp] theorem rset_therm (b : Blk) (o : Nat) (w : Word) : (rset s b o w).therm = s.therm := rfl
@[simp] theorem rset_sec (b : Blk) (o : Nat) (w : Word) : (rset s b o w).sec = s.sec := rfl
@[simp] theorem rset_cairn (b : Blk) (o : Nat) (w : Word) : (rset s b o w).cairn = s.cairn := rfl
@[simp] theorem rset_guest (b : Blk) (o : Nat) (w : Word) : (rset s b o w).guest = s.guest := rfl
@[simp] theorem rset_ridge (b : Blk) (o : Nat) (w : Word) : (rset s b o w).ridge = s.ridge := rfl

@[simp] theorem rput_pending (b : Blk) (o hi lo n : Nat) : (rput s b o hi lo n).pending = s.pending := rfl
@[simp] theorem rput_free (b : Blk) (o hi lo n : Nat) : (rput s b o hi lo n).free = s.free := rfl
@[simp] theorem rput_flt (b : Blk) (o hi lo n : Nat) : (rput s b o hi lo n).flt = s.flt := rfl
@[simp] theorem rput_sent (b : Blk) (o hi lo n : Nat) : (rput s b o hi lo n).sent = s.sent := rfl
@[simp] theorem rput_cyc (b : Blk) (o hi lo n : Nat) : (rput s b o hi lo n).cyc = s.cyc := rfl
@[simp] theorem rput_markCyc (b : Blk) (o hi lo n : Nat) : (rput s b o hi lo n).markCyc = s.markCyc := rfl
@[simp] theorem rput_eff (b : Blk) (o hi lo n : Nat) : (rput s b o hi lo n).eff = s.eff := rfl
@[simp] theorem rput_tiles (b : Blk) (o hi lo n : Nat) : (rput s b o hi lo n).tiles = s.tiles := rfl
@[simp] theorem rput_roost (b : Blk) (o hi lo n : Nat) : (rput s b o hi lo n).roost = s.roost := rfl
@[simp] theorem rput_resetAt (b : Blk) (o hi lo n : Nat) : (rput s b o hi lo n).resetAt = s.resetAt := rfl
@[simp] theorem rput_grt (b : Blk) (o hi lo n : Nat) : (rput s b o hi lo n).grt = s.grt := rfl
@[simp] theorem rput_hv (b : Blk) (o hi lo n : Nat) : (rput s b o hi lo n).hv = s.hv := rfl
@[simp] theorem rput_hvSat (b : Blk) (o hi lo n : Nat) : (rput s b o hi lo n).hvSat = s.hvSat := rfl
@[simp] theorem rput_hvWas (b : Blk) (o hi lo n : Nat) : (rput s b o hi lo n).hvWas = s.hvWas := rfl
@[simp] theorem rput_boards (b : Blk) (o hi lo n : Nat) : (rput s b o hi lo n).boards = s.boards := rfl
@[simp] theorem rput_cores (b : Blk) (o hi lo n : Nat) : (rput s b o hi lo n).cores = s.cores := rfl
@[simp] theorem rput_adds (b : Blk) (o hi lo n : Nat) : (rput s b o hi lo n).adds = s.adds := rfl
@[simp] theorem rput_parts (b : Blk) (o hi lo n : Nat) : (rput s b o hi lo n).parts = s.parts := rfl
@[simp] theorem rput_memStacks (b : Blk) (o hi lo n : Nat) : (rput s b o hi lo n).memStacks = s.memStacks := rfl
@[simp] theorem rput_mem (b : Blk) (o hi lo n : Nat) : (rput s b o hi lo n).mem = s.mem := rfl
@[simp] theorem rput_hostMem0 (b : Blk) (o hi lo n : Nat) : (rput s b o hi lo n).hostMem0 = s.hostMem0 := rfl
@[simp] theorem rput_hostMem1 (b : Blk) (o hi lo n : Nat) : (rput s b o hi lo n).hostMem1 = s.hostMem1 := rfl
@[simp] theorem rput_guestMem (b : Blk) (o hi lo n : Nat) : (rput s b o hi lo n).guestMem = s.guestMem := rfl
@[simp] theorem rput_ecc (b : Blk) (o hi lo n : Nat) : (rput s b o hi lo n).ecc = s.ecc := rfl
@[simp] theorem rput_walks (b : Blk) (o hi lo n : Nat) : (rput s b o hi lo n).walks = s.walks := rfl
@[simp] theorem rput_arrivals (b : Blk) (o hi lo n : Nat) : (rput s b o hi lo n).arrivals = s.arrivals := rfl
@[simp] theorem rput_links (b : Blk) (o hi lo n : Nat) : (rput s b o hi lo n).links = s.links := rfl
@[simp] theorem rput_deliveries (b : Blk) (o hi lo n : Nat) : (rput s b o hi lo n).deliveries = s.deliveries := rfl
@[simp] theorem rput_time (b : Blk) (o hi lo n : Nat) : (rput s b o hi lo n).time = s.time := rfl
@[simp] theorem rput_port0 (b : Blk) (o hi lo n : Nat) : (rput s b o hi lo n).port0 = s.port0 := rfl
@[simp] theorem rput_port1 (b : Blk) (o hi lo n : Nat) : (rput s b o hi lo n).port1 = s.port1 := rfl
@[simp] theorem rput_steward (b : Blk) (o hi lo n : Nat) : (rput s b o hi lo n).steward = s.steward := rfl
@[simp] theorem rput_bup (b : Blk) (o hi lo n : Nat) : (rput s b o hi lo n).bup = s.bup := rfl
@[simp] theorem rput_glow (b : Blk) (o hi lo n : Nat) : (rput s b o hi lo n).glow = s.glow := rfl
@[simp] theorem rput_therm (b : Blk) (o hi lo n : Nat) : (rput s b o hi lo n).therm = s.therm := rfl
@[simp] theorem rput_sec (b : Blk) (o hi lo n : Nat) : (rput s b o hi lo n).sec = s.sec := rfl
@[simp] theorem rput_cairn (b : Blk) (o hi lo n : Nat) : (rput s b o hi lo n).cairn = s.cairn := rfl
@[simp] theorem rput_guest (b : Blk) (o hi lo n : Nat) : (rput s b o hi lo n).guest = s.guest := rfl
@[simp] theorem rput_ridge (b : Blk) (o hi lo n : Nat) : (rput s b o hi lo n).ridge = s.ridge := rfl

@[simp] theorem rsat_pending (b : Blk) (o hi lo n : Nat) : (rsat s b o hi lo n).pending = s.pending := rfl
@[simp] theorem rsat_free (b : Blk) (o hi lo n : Nat) : (rsat s b o hi lo n).free = s.free := rfl
@[simp] theorem rsat_flt (b : Blk) (o hi lo n : Nat) : (rsat s b o hi lo n).flt = s.flt := rfl
@[simp] theorem rsat_sent (b : Blk) (o hi lo n : Nat) : (rsat s b o hi lo n).sent = s.sent := rfl
@[simp] theorem rsat_cyc (b : Blk) (o hi lo n : Nat) : (rsat s b o hi lo n).cyc = s.cyc := rfl
@[simp] theorem rsat_markCyc (b : Blk) (o hi lo n : Nat) : (rsat s b o hi lo n).markCyc = s.markCyc := rfl
@[simp] theorem rsat_eff (b : Blk) (o hi lo n : Nat) : (rsat s b o hi lo n).eff = s.eff := rfl
@[simp] theorem rsat_tiles (b : Blk) (o hi lo n : Nat) : (rsat s b o hi lo n).tiles = s.tiles := rfl
@[simp] theorem rsat_roost (b : Blk) (o hi lo n : Nat) : (rsat s b o hi lo n).roost = s.roost := rfl
@[simp] theorem rsat_resetAt (b : Blk) (o hi lo n : Nat) : (rsat s b o hi lo n).resetAt = s.resetAt := rfl
@[simp] theorem rsat_grt (b : Blk) (o hi lo n : Nat) : (rsat s b o hi lo n).grt = s.grt := rfl
@[simp] theorem rsat_hv (b : Blk) (o hi lo n : Nat) : (rsat s b o hi lo n).hv = s.hv := rfl
@[simp] theorem rsat_hvSat (b : Blk) (o hi lo n : Nat) : (rsat s b o hi lo n).hvSat = s.hvSat := rfl
@[simp] theorem rsat_hvWas (b : Blk) (o hi lo n : Nat) : (rsat s b o hi lo n).hvWas = s.hvWas := rfl
@[simp] theorem rsat_boards (b : Blk) (o hi lo n : Nat) : (rsat s b o hi lo n).boards = s.boards := rfl
@[simp] theorem rsat_cores (b : Blk) (o hi lo n : Nat) : (rsat s b o hi lo n).cores = s.cores := rfl
@[simp] theorem rsat_adds (b : Blk) (o hi lo n : Nat) : (rsat s b o hi lo n).adds = s.adds := rfl
@[simp] theorem rsat_parts (b : Blk) (o hi lo n : Nat) : (rsat s b o hi lo n).parts = s.parts := rfl
@[simp] theorem rsat_memStacks (b : Blk) (o hi lo n : Nat) : (rsat s b o hi lo n).memStacks = s.memStacks := rfl
@[simp] theorem rsat_mem (b : Blk) (o hi lo n : Nat) : (rsat s b o hi lo n).mem = s.mem := rfl
@[simp] theorem rsat_hostMem0 (b : Blk) (o hi lo n : Nat) : (rsat s b o hi lo n).hostMem0 = s.hostMem0 := rfl
@[simp] theorem rsat_hostMem1 (b : Blk) (o hi lo n : Nat) : (rsat s b o hi lo n).hostMem1 = s.hostMem1 := rfl
@[simp] theorem rsat_guestMem (b : Blk) (o hi lo n : Nat) : (rsat s b o hi lo n).guestMem = s.guestMem := rfl
@[simp] theorem rsat_ecc (b : Blk) (o hi lo n : Nat) : (rsat s b o hi lo n).ecc = s.ecc := rfl
@[simp] theorem rsat_walks (b : Blk) (o hi lo n : Nat) : (rsat s b o hi lo n).walks = s.walks := rfl
@[simp] theorem rsat_arrivals (b : Blk) (o hi lo n : Nat) : (rsat s b o hi lo n).arrivals = s.arrivals := rfl
@[simp] theorem rsat_links (b : Blk) (o hi lo n : Nat) : (rsat s b o hi lo n).links = s.links := rfl
@[simp] theorem rsat_deliveries (b : Blk) (o hi lo n : Nat) : (rsat s b o hi lo n).deliveries = s.deliveries := rfl
@[simp] theorem rsat_time (b : Blk) (o hi lo n : Nat) : (rsat s b o hi lo n).time = s.time := rfl
@[simp] theorem rsat_port0 (b : Blk) (o hi lo n : Nat) : (rsat s b o hi lo n).port0 = s.port0 := rfl
@[simp] theorem rsat_port1 (b : Blk) (o hi lo n : Nat) : (rsat s b o hi lo n).port1 = s.port1 := rfl
@[simp] theorem rsat_steward (b : Blk) (o hi lo n : Nat) : (rsat s b o hi lo n).steward = s.steward := rfl
@[simp] theorem rsat_bup (b : Blk) (o hi lo n : Nat) : (rsat s b o hi lo n).bup = s.bup := rfl
@[simp] theorem rsat_glow (b : Blk) (o hi lo n : Nat) : (rsat s b o hi lo n).glow = s.glow := rfl
@[simp] theorem rsat_therm (b : Blk) (o hi lo n : Nat) : (rsat s b o hi lo n).therm = s.therm := rfl
@[simp] theorem rsat_sec (b : Blk) (o hi lo n : Nat) : (rsat s b o hi lo n).sec = s.sec := rfl
@[simp] theorem rsat_cairn (b : Blk) (o hi lo n : Nat) : (rsat s b o hi lo n).cairn = s.cairn := rfl
@[simp] theorem rsat_guest (b : Blk) (o hi lo n : Nat) : (rsat s b o hi lo n).guest = s.guest := rfl
@[simp] theorem rsat_ridge (b : Blk) (o hi lo n : Nat) : (rsat s b o hi lo n).ridge = s.ridge := rfl

@[simp] theorem rsetEff_pending (b : Blk) (o : Nat) (w : Word) : (rsetEff s b o w).pending = s.pending := rfl
@[simp] theorem rsetEff_free (b : Blk) (o : Nat) (w : Word) : (rsetEff s b o w).free = s.free := rfl
@[simp] theorem rsetEff_flt (b : Blk) (o : Nat) (w : Word) : (rsetEff s b o w).flt = s.flt := rfl
@[simp] theorem rsetEff_sent (b : Blk) (o : Nat) (w : Word) : (rsetEff s b o w).sent = s.sent := rfl
@[simp] theorem rsetEff_cyc (b : Blk) (o : Nat) (w : Word) : (rsetEff s b o w).cyc = s.cyc := rfl
@[simp] theorem rsetEff_markCyc (b : Blk) (o : Nat) (w : Word) : (rsetEff s b o w).markCyc = s.markCyc := rfl
@[simp] theorem rsetEff_regs (b : Blk) (o : Nat) (w : Word) : (rsetEff s b o w).regs = s.regs := rfl
@[simp] theorem rsetEff_tiles (b : Blk) (o : Nat) (w : Word) : (rsetEff s b o w).tiles = s.tiles := rfl
@[simp] theorem rsetEff_roost (b : Blk) (o : Nat) (w : Word) : (rsetEff s b o w).roost = s.roost := rfl
@[simp] theorem rsetEff_resetAt (b : Blk) (o : Nat) (w : Word) : (rsetEff s b o w).resetAt = s.resetAt := rfl
@[simp] theorem rsetEff_grt (b : Blk) (o : Nat) (w : Word) : (rsetEff s b o w).grt = s.grt := rfl
@[simp] theorem rsetEff_hv (b : Blk) (o : Nat) (w : Word) : (rsetEff s b o w).hv = s.hv := rfl
@[simp] theorem rsetEff_hvSat (b : Blk) (o : Nat) (w : Word) : (rsetEff s b o w).hvSat = s.hvSat := rfl
@[simp] theorem rsetEff_hvWas (b : Blk) (o : Nat) (w : Word) : (rsetEff s b o w).hvWas = s.hvWas := rfl
@[simp] theorem rsetEff_boards (b : Blk) (o : Nat) (w : Word) : (rsetEff s b o w).boards = s.boards := rfl
@[simp] theorem rsetEff_cores (b : Blk) (o : Nat) (w : Word) : (rsetEff s b o w).cores = s.cores := rfl
@[simp] theorem rsetEff_adds (b : Blk) (o : Nat) (w : Word) : (rsetEff s b o w).adds = s.adds := rfl
@[simp] theorem rsetEff_parts (b : Blk) (o : Nat) (w : Word) : (rsetEff s b o w).parts = s.parts := rfl
@[simp] theorem rsetEff_memStacks (b : Blk) (o : Nat) (w : Word) : (rsetEff s b o w).memStacks = s.memStacks := rfl
@[simp] theorem rsetEff_mem (b : Blk) (o : Nat) (w : Word) : (rsetEff s b o w).mem = s.mem := rfl
@[simp] theorem rsetEff_hostMem0 (b : Blk) (o : Nat) (w : Word) : (rsetEff s b o w).hostMem0 = s.hostMem0 := rfl
@[simp] theorem rsetEff_hostMem1 (b : Blk) (o : Nat) (w : Word) : (rsetEff s b o w).hostMem1 = s.hostMem1 := rfl
@[simp] theorem rsetEff_guestMem (b : Blk) (o : Nat) (w : Word) : (rsetEff s b o w).guestMem = s.guestMem := rfl
@[simp] theorem rsetEff_ecc (b : Blk) (o : Nat) (w : Word) : (rsetEff s b o w).ecc = s.ecc := rfl
@[simp] theorem rsetEff_walks (b : Blk) (o : Nat) (w : Word) : (rsetEff s b o w).walks = s.walks := rfl
@[simp] theorem rsetEff_arrivals (b : Blk) (o : Nat) (w : Word) : (rsetEff s b o w).arrivals = s.arrivals := rfl
@[simp] theorem rsetEff_links (b : Blk) (o : Nat) (w : Word) : (rsetEff s b o w).links = s.links := rfl
@[simp] theorem rsetEff_deliveries (b : Blk) (o : Nat) (w : Word) : (rsetEff s b o w).deliveries = s.deliveries := rfl
@[simp] theorem rsetEff_time (b : Blk) (o : Nat) (w : Word) : (rsetEff s b o w).time = s.time := rfl
@[simp] theorem rsetEff_port0 (b : Blk) (o : Nat) (w : Word) : (rsetEff s b o w).port0 = s.port0 := rfl
@[simp] theorem rsetEff_port1 (b : Blk) (o : Nat) (w : Word) : (rsetEff s b o w).port1 = s.port1 := rfl
@[simp] theorem rsetEff_steward (b : Blk) (o : Nat) (w : Word) : (rsetEff s b o w).steward = s.steward := rfl
@[simp] theorem rsetEff_bup (b : Blk) (o : Nat) (w : Word) : (rsetEff s b o w).bup = s.bup := rfl
@[simp] theorem rsetEff_glow (b : Blk) (o : Nat) (w : Word) : (rsetEff s b o w).glow = s.glow := rfl
@[simp] theorem rsetEff_therm (b : Blk) (o : Nat) (w : Word) : (rsetEff s b o w).therm = s.therm := rfl
@[simp] theorem rsetEff_sec (b : Blk) (o : Nat) (w : Word) : (rsetEff s b o w).sec = s.sec := rfl
@[simp] theorem rsetEff_cairn (b : Blk) (o : Nat) (w : Word) : (rsetEff s b o w).cairn = s.cairn := rfl
@[simp] theorem rsetEff_guest (b : Blk) (o : Nat) (w : Word) : (rsetEff s b o w).guest = s.guest := rfl
@[simp] theorem rsetEff_ridge (b : Blk) (o : Nat) (w : Word) : (rsetEff s b o w).ridge = s.ridge := rfl

/-! Reading back. -/

@[simp] theorem State.tile_setTile (h : Nat) (t : Tile) (j : Nat) :
    (s.setTile h t).tile j = if j = h then t else s.tile j := SMap.get_put _ _ _ _ _
@[simp] theorem State.tile_updTile (h : Nat) (f : Tile → Tile) (j : Nat) :
    (s.updTile h f).tile j = if j = h then f (s.tile h) else s.tile j := SMap.get_put _ _ _ _ _
@[simp] theorem State.grotto_setGrotto (k : Nat) (c : Grotto) (j : Nat) :
    (s.setGrotto k c).grotto j = if j = k then c else s.grotto j := SMap.get_put _ _ _ _ _
@[simp] theorem State.part_setPart (p : Nat) (x : Part) (j : Nat) :
    (s.setPart p x).part j = if j = p then x else s.part j := SMap.get_put _ _ _ _ _
@[simp] theorem State.part_updPart (p : Nat) (f : Part → Part) (j : Nat) :
    (s.updPart p f).part j = if j = p then f (s.part p) else s.part j := SMap.get_put _ _ _ _ _
@[simp] theorem State.stack_setStack (k : Nat) (x : Stack) (j : Nat) :
    (s.setStack k x).stack j = if j = k then x else s.stack j := SMap.get_put _ _ _ _ _
@[simp] theorem State.link_setLink (l : Nat) (x : Link) (j : Nat) :
    (s.setLink l x).link j = if j = l then x else s.link j := SMap.get_put _ _ _ _ _
@[simp] theorem State.ridgeMod_setRidge (m : Nat) (x : Ridge) (j : Nat) :
    (s.setRidge m x).ridgeMod j = if j = m then x else s.ridgeMod j := SMap.get_put _ _ _ _ _
@[simp] theorem State.portOf_setPort (b c : Bool) (x : Port) :
    (s.setPort b x).portOf c = if c = b then x else s.portOf c := by cases b <;> cases c <;> rfl
@[simp] theorem State.hostMem_setHostMem (b c : Bool) (m : Mem) :
    (s.setHostMem b m).hostMem c = if c = b then m else s.hostMem c := by cases b <;> cases c <;> rfl
@[simp] theorem Tile.ctxOf_setCtx (t : Tile) (n : Nat) (c : Ctx) (j : Nat) :
    (t.setCtx n c).ctxOf j = if j = n then c else t.ctxOf j := SMap.get_put _ _ _ _ _
@[simp] theorem Tile.qOf_setQ (t : Tile) (q : Nat) (x : Queue) (j : Nat) :
    (t.setQ q x).qOf j = if j = q then x else t.qOf j := SMap.get_put _ _ _ _ _

/-- A register reads as last written; every other register as before. -/
theorem rg_rset (b c : Blk) (o k : Nat) (w : Word) :
    rg (rset s b o w) c k = if c.base + k = b.base + o then w else rg s c k := SMap.get_put _ _ _ _ _
@[simp] theorem rg_rset_same (b : Blk) (o : Nat) (w : Word) : rg (rset s b o w) b o = w := by simp [rg_rset]
theorem rg_rset_ne {b c : Blk} {o k : Nat} (w : Word) (h : c.base + k ≠ b.base + o) :
    rg (rset s b o w) c k = rg s c k := by simp [rg_rset, h]
theorem rg_rput (b c : Blk) (o k hi lo n : Nat) :
    rg (rput s b o hi lo n) c k = if c.base + k = b.base + o then (rg s b o).put hi lo n else rg s c k :=
  rg_rset s b c o k _
@[simp] theorem rgEff_rset (b c : Blk) (o k : Nat) (w : Word) : rgEff (rset s b o w) c k = rgEff s c k := rfl
@[simp] theorem rgEff_rput (b c : Blk) (o k hi lo n : Nat) : rgEff (rput s b o hi lo n) c k = rgEff s c k := rfl
@[simp] theorem rg_rsetEff (b c : Blk) (o k : Nat) (w : Word) : rg (rsetEff s b o w) c k = rg s c k := rfl
theorem rgEff_rsetEff (b c : Blk) (o k : Nat) (w : Word) :
    rgEff (rsetEff s b o w) c k = if c.base + k = b.base + o then w else rgEff s c k := SMap.get_put _ _ _ _ _

@[simp] theorem rset_rset (b : Blk) (o : Nat) (v w : Word) : rset (rset s b o v) b o w = rset s b o w := by
  simp [rset]

end Sys2Proof.Machine
end

