-- ==== Sys2Proof/Laws/Units.lean ====
section
/-! SUPPORT. The registers of a unit, and what one issued instruction can do. -/
namespace Sys2Proof.Machine

variable (s : State)

@[simp] theorem tileAt_setTile (h : Nat) (x : Tile) (t : Nat) : tileAt (s.setTile h x) t = tileAt s t := rfl
@[simp] theorem tileAt_updTile (h : Nat) (f : Tile → Tile) (t : Nat) : tileAt (s.updTile h f) t = tileAt s t := rfl
@[simp] theorem tileAt_setGrotto (k : Nat) (x : Grotto) (t : Nat) : tileAt (s.setGrotto k x) t = tileAt s t := rfl
@[simp] theorem tileAt_setCtxAt (a n : Nat) (c : Ctx) (t : Nat) : tileAt (setCtxAt s a n c) t = tileAt s t := rfl
@[simp] theorem physOf_updTile (h : Nat) (f : Tile → Tile) (t : Nat) : physOf (s.updTile h f) t = physOf s t := rfl

@[simp] theorem ctxAt_setCtxAt (t n : Nat) (c : Ctx) : ctxAt (setCtxAt s t n c) t n = c := by
  simp [ctxAt, setCtxAt]
@[simp] theorem grotto_setCtxAt (t n : Nat) (c : Ctx) (k : Nat) : (setCtxAt s t n c).grotto k = s.grotto k := rfl

/-! A context or core whose own registers and PC alone change. -/

/-- `t` is `s` with registers and PC of unit `u` changed. -/
def RegsChange (u : Agent) (s t : State) : Prop :=
  match u with
  | .spur l n => ∃ pc g v p, t = setCtxAt s l n { ctxAt s l n with pc := pc, g := g, v := v, p := p }
  | .grotto k => ∃ pc g w, t = s.setGrotto k { s.grotto k with pc := pc, g := g, w := w }

/-- The context of `u` is READY (nothing to say of a grotto core). -/
def CtxReady (u : Agent) (s : State) : Prop :=
  match u with
  | .spur l n => (ctxAt s l n).st = .ready
  | .grotto _ => True

theorem SMap.any_put {α : Type} (m : SMap α) (k : Nat) (v : α) (p : Nat × α → Bool) (h : p (k, v) = true) :
    (SMap.put k v m).any p = true := by
  induction m with
  | nil => simp [SMap.put, h]
  | cons e r ih =>
    obtain ⟨j, w⟩ := e
    unfold SMap.put
    split
    · simp [h]
    · split
      · simp [h]
      · simp [ih]

/-- A tile with a READY context does not roost. -/
theorem Tile.roosts_setCtx (x : Tile) (n : Nat) (c : Ctx) (h : c.st = .ready) : (x.setCtx n c).roosts = false := by
  have : (x.setCtx n c).ctx.any (fun e => e.2.stirs) = true :=
    SMap.any_put x.ctx n c _ (by simp [Ctx.stirs, h])
  simp [Tile.roosts, this]

theorem Roost.turn_turn (r : Roost) (a b : Tile) (c d : Nat) (h : a.roosts = b.roosts) :
    (r.turn a c d).turn b c d = r.turn b c d := by
  unfold Roost.turn
  rw [h]
  split
  · rename_i e
    split <;> rename_i e2
    · have : b.roosts = true := by rw [← e, e2]
      simp [this]
    · have : b.roosts = false := by rw [← e]; simpa using e2
      simp [this]
  · rfl

theorem Tile.setCtx_setCtx (x : Tile) (n : Nat) (a b : Ctx) : (x.setCtx n a).setCtx n b = x.setCtx n b := by
  simp [Tile.setCtx]

theorem setCtxAt_setCtxAt (t n : Nat) (a b : Ctx) (ha : a.st = .ready) (hb : b.st = .ready) :
    setCtxAt (setCtxAt s t n a) t n b = setCtxAt s t n b := by
  have e : ((s.tile (tileAt s t)).setCtx n a).roosts = ((s.tile (tileAt s t)).setCtx n b).roosts := by
    rw [Tile.roosts_setCtx _ _ _ ha, Tile.roosts_setCtx _ _ _ hb]
  unfold setCtxAt
  simp only [tileAt_updTile]
  simp only [State.tile] at e
  simp only [State.updTile, State.setTile, State.tile, SMap.get_put_same, SMap.put_put, Tile.setCtx_setCtx,
    Roost.turn_turn _ _ _ _ _ e]

theorem RegsChange.trans {u : Agent} {s t r : State} (hs : CtxReady u s) (h : RegsChange u s t) (k : RegsChange u t r) :
    RegsChange u s r := by
  cases u with
  | spur l n =>
    obtain ⟨pc, g, v, p, rfl⟩ := h
    obtain ⟨pc', g', v', p', rfl⟩ := k
    refine ⟨pc', g', v', p', ?_⟩
    rw [setCtxAt_setCtxAt] <;> simp_all [CtxReady]
  | grotto k =>
    obtain ⟨pc, g, w, rfl⟩ := h
    obtain ⟨pc', g', w', rfl⟩ := k
    exact ⟨pc', g', w', by simp [State.setGrotto, State.grotto]⟩

theorem RegsChange.ready {u : Agent} {s t : State} (hs : CtxReady u s) (h : RegsChange u s t) : CtxReady u t := by
  cases u with
  | spur l n => obtain ⟨pc, g, v, p, rfl⟩ := h; simpa [CtxReady] using hs
  | grotto k => trivial

theorem regsChange_setPc (u : Agent) (pc : Nat) : RegsChange u s (setPc u pc s) := by
  cases u with
  | spur l n => exact ⟨pc, _, _, _, rfl⟩
  | grotto k => exact ⟨pc, _, _, rfl⟩

theorem regsChange_setG (u : Agent) (r : BitVec 5) (v : Nat) (h : r ≠ 0) : RegsChange u s (setG u r v s) := by
  cases u with
  | spur l n => simp only [setG, h, ite_false]; exact ⟨_, _, _, _, rfl⟩
  | grotto k => simp only [setG, h, ite_false]; exact ⟨_, _, _, rfl⟩

theorem regsChange_setV (u : Agent) (r : BitVec 5) (v : Nat) : RegsChange u s (setV u r v s) := by
  cases u with
  | spur l n => exact ⟨_, _, _, _, rfl⟩
  | grotto k => exact ⟨_, _, _, rfl⟩

/-- Writing registers in any way and then the PC is a change of the unit's registers. -/
theorem regsChange_go {u : Agent} {s t : State} (hs : CtxReady u s) (h : t = s ∨ RegsChange u s t) (pc : Nat) :
    RegsChange u s (setPc u pc t) := by
  rcases h with rfl | h
  · exact regsChange_setPc _ _ _
  · exact h.trans hs (regsChange_setPc _ _ _)

theorem regsOr_setG (u : Agent) (r : BitVec 5) (v : Nat) : setG u r v s = s ∨ RegsChange u s (setG u r v s) := by
  by_cases h : r = 0
  · left; simp [setG, h]
  · exact .inr (regsChange_setG s u r v h)

theorem regsOr_setP (u : Agent) (p : Nat) (v : Word) : setP u p v s = s ∨ RegsChange u s (setP u p v s) := by
  unfold setP
  split
  · exact .inl rfl
  · cases u with
    | spur l n => exact .inr ⟨_, _, _, _, rfl⟩
    | grotto k => exact .inl rfl

/-! Reading registers back. -/

@[simp] theorem pcOf_setPc (u : Agent) (pc : Nat) : pcOf u (setPc u pc s) = pc := by
  cases u <;> simp [pcOf, setPc]
@[simp] theorem getG_setPc (u : Agent) (pc : Nat) (r : BitVec 5) : getG u (setPc u pc s) r = getG u s r := by
  cases u <;> simp [getG, setPc]
@[simp] theorem getV_setPc (u : Agent) (pc : Nat) (r : BitVec 5) : getV u (setPc u pc s) r = getV u s r := by
  cases u <;> simp [getV, setPc]
@[simp] theorem getP_setPc (u : Agent) (pc : Nat) (p : Nat) : getP u (setPc u pc s) p = getP u s p := by
  cases u <;> simp [getP, setPc]

@[simp] theorem pcOf_setG (u : Agent) (r : BitVec 5) (v : Nat) : pcOf u (setG u r v s) = pcOf u s := by
  unfold setG; split
  · rfl
  · cases u <;> simp [pcOf]
@[simp] theorem getV_setG (u : Agent) (r : BitVec 5) (v : Nat) (x : BitVec 5) : getV u (setG u r v s) x = getV u s x := by
  unfold setG; split
  · rfl
  · cases u <;> simp [getV]
@[simp] theorem getP_setG (u : Agent) (r : BitVec 5) (v : Nat) (p : Nat) : getP u (setG u r v s) p = getP u s p := by
  unfold setG; split
  · rfl
  · cases u <;> simp [getP]
/-- Scalar registers after a write: g0 reads as zero, the one written holds the value at the unit's width (R76). -/
theorem getG_setG (u : Agent) (rd : BitVec 5) (v : Nat) (r : BitVec 5) :
    getG u (setG u rd v s) r = withG u s rd (v % 2 ^ gWidth u) r := by
  unfold withG
  by_cases h0 : r = 0#5
  · subst h0; simp [getG]
  · by_cases h1 : rd = 0#5
    · subst h1; simp [setG, h0]
    · by_cases h2 : r = rd
      · subst h2
        cases u <;> simp [getG, setG, h0, gWidth, isSpur]
      · have h3 : r.toNat ≠ rd.toNat := fun e => h2 (BitVec.eq_of_toNat_eq e)
        cases u <;> simp [getG, setG, h0, h1, h2, SMap.get_put, h3]

@[simp] theorem pcOf_setV (u : Agent) (r : BitVec 5) (v : Nat) : pcOf u (setV u r v s) = pcOf u s := by
  cases u <;> simp [pcOf, setV]
@[simp] theorem getG_setV (u : Agent) (r : BitVec 5) (v : Nat) (x : BitVec 5) : getG u (setV u r v s) x = getG u s x := by
  cases u <;> simp [getG, setV]
@[simp] theorem getP_setV (u : Agent) (r : BitVec 5) (v : Nat) (p : Nat) : getP u (setV u r v s) p = getP u s p := by
  cases u <;> simp [getP, setV]
theorem getV_setV (u : Agent) (vd : BitVec 5) (v : Nat) (r : BitVec 5) :
    getV u (setV u vd v s) r = withV u s vd (v % 2 ^ (8 * vBytes u)) r := by
  unfold withV
  by_cases h2 : r = vd
  · subst h2
    have : ∀ k, k ≤ 1024 → v % 2 ^ k % 2 ^ 1024 = v % 2 ^ k := fun k hk =>
      Nat.mod_eq_of_lt (Nat.lt_of_lt_of_le (Nat.mod_lt _ (Nat.two_pow_pos _)) (Nat.pow_le_pow_right (by omega) hk))
    cases u
    · simp [getV, setV, vBytes, isSpur]
      exact this 512 (by omega)
    · simp [getV, setV, vBytes, isSpur]
  · have h3 : r.toNat ≠ vd.toNat := fun e => h2 (BitVec.eq_of_toNat_eq e)
    cases u <;> simp [getV, setV, h2, SMap.get_put, h3]

@[simp] theorem pcOf_setP (u : Agent) (p : Nat) (v : Word) : pcOf u (setP u p v s) = pcOf u s := by
  unfold setP; split
  · rfl
  · cases u <;> simp [pcOf]
@[simp] theorem getG_setP (u : Agent) (p : Nat) (v : Word) (x : BitVec 5) : getG u (setP u p v s) x = getG u s x := by
  unfold setP; split
  · rfl
  · cases u <;> simp [getG]
@[simp] theorem getV_setP (u : Agent) (p : Nat) (v : Word) (x : BitVec 5) : getV u (setP u p v s) x = getV u s x := by
  unfold setP; split
  · rfl
  · cases u <;> simp [getV]
theorem getP_setP (l : Fin 512) (n : Fin 8) (pd : Nat) (v : Word) (p : Nat) :
    getP (.spur l n) (setP (.spur l n) pd v s) p = withP (.spur l n) s pd v p := by
  unfold withP
  by_cases h0 : p = 0
  · simp [getP, h0]
  · simp only [h0, ite_false]
    by_cases h1 : pd = 0
    · subst h1; simp [setP, h0]
    · by_cases h2 : p = pd
      · subst h2; simp [getP, setP, h0]
      · simp [getP, setP, h0, h1, h2, SMap.get_put]

/-! Memory. -/

theorem memOf_setCtxAt (t n : Nat) (c : Ctx) (i : MemId) : memOf (setCtxAt s t n c) i = memOf s i := by
  cases i <;> simp [memOf, setCtxAt, Tile.setCtx, State.grotto] <;> split <;> simp_all
theorem memOf_setGrotto (k : Nat) (g : Grotto) (i : MemId) (h : g.ls = (s.grotto k).ls) :
    memOf (s.setGrotto k g) i = memOf s i := by
  cases i <;> simp [memOf, State.tile] <;> split <;> simp_all
@[simp] theorem memOf_spendStep (k : Nat) (t : State) (i : MemId) : memOf (spendStep k s t) i = memOf t i := by
  unfold spendStep
  split
  · cases i <;> rfl
  · rfl

theorem RegsChange.memory {u : Agent} {s t : State} (h : RegsChange u s t) : SameMemory s t := by
  cases u with
  | spur l n =>
    obtain ⟨pc, g, v, p, rfl⟩ := h
    exact ⟨fun i a => by rw [memOf_setCtxAt], rfl, rfl, rfl⟩
  | grotto k =>
    obtain ⟨pc, g, w, rfl⟩ := h
    exact ⟨fun i a => congrArg (fun m => Mem.read m a) (memOf_setGrotto s _ _ i rfl), rfl, rfl, rfl⟩

/-! One instruction. -/

/-- `t` is `s` but for the issue times of units and cores. -/
def Noted (s t : State) : Prop := ∃ b c, t = { s with boards := b, cores := c }

theorem noted_noteIssue (u : Agent) (i : Option Instr) (s t : State) : Noted t (noteIssue u i s t) := ⟨_, _, rfl⟩
theorem noted_noteJump (u : Agent) (t : State) : Noted t (noteJump u t) := ⟨_, t.cores, rfl⟩

theorem Noted.pcOf {s t : State} (h : Noted s t) (u : Agent) : pcOf u t = Machine.pcOf u s := by
  obtain ⟨b, c, rfl⟩ := h; cases u <;> rfl
theorem Noted.getG {s t : State} (h : Noted s t) (u : Agent) (r : BitVec 5) : getG u t r = Machine.getG u s r := by
  obtain ⟨b, c, rfl⟩ := h; cases u <;> rfl
theorem Noted.getV {s t : State} (h : Noted s t) (u : Agent) (r : BitVec 5) : getV u t r = Machine.getV u s r := by
  obtain ⟨b, c, rfl⟩ := h; cases u <;> rfl
theorem Noted.getP {s t : State} (h : Noted s t) (u : Agent) (p : Nat) : getP u t p = Machine.getP u s p := by
  obtain ⟨b, c, rfl⟩ := h; cases u <;> rfl
theorem Noted.memOf {s t : State} (h : Noted s t) (i : MemId) : memOf t i = Machine.memOf s i := by
  obtain ⟨b, c, rfl⟩ := h; cases i <;> rfl
theorem Noted.setPc {s t : State} (h : Noted s t) (u : Agent) (pc : Nat) : Noted (setPc u pc s) (Machine.setPc u pc t) := by
  obtain ⟨b, c, rfl⟩ := h; cases u <;> exact ⟨b, c, rfl⟩
theorem Noted.rfl' (s : State) : Noted s s := ⟨s.boards, s.cores, rfl⟩

@[simp] theorem pcOf_granted (c : Instr) (u : Agent) (t : State) : pcOf u (granted c u s t) = pcOf u t := by
  have h := (noted_noteIssue u (some c) s t).pcOf u
  cases u with
  | spur l n => simp only [granted, finish, spendStep]; split <;> exact h
  | grotto k => exact h
@[simp] theorem getG_granted (c : Instr) (u : Agent) (t : State) (r : BitVec 5) : getG u (granted c u s t) r = getG u t r := by
  have h := (noted_noteIssue u (some c) s t).getG u r
  cases u with
  | spur l n => simp only [granted, finish, spendStep]; split <;> exact h
  | grotto k => exact h
@[simp] theorem getV_granted (c : Instr) (u : Agent) (t : State) (r : BitVec 5) : getV u (granted c u s t) r = getV u t r := by
  have h := (noted_noteIssue u (some c) s t).getV u r
  cases u with
  | spur l n => simp only [granted, finish, spendStep]; split <;> exact h
  | grotto k => exact h
@[simp] theorem getP_granted (c : Instr) (u : Agent) (t : State) (r : Nat) : getP u (granted c u s t) r = getP u t r := by
  have h := (noted_noteIssue u (some c) s t).getP u r
  cases u with
  | spur l n => simp only [granted, finish, spendStep]; split <;> exact h
  | grotto k => exact h
@[simp] theorem memOf_granted (c : Instr) (u : Agent) (t : State) (i : MemId) : memOf (granted c u s t) i = memOf t i := by
  have h := (noted_noteIssue u (some c) s t).memOf i
  cases u with
  | spur l n => simp only [granted, finish, memOf_spendStep]; exact h
  | grotto k => exact h

/-- One instruction in one equation: on the unit's turn, with the instruction's word at the PC, `issue` is the checks and then
the body, on this cycle. -/
theorem issue_eq {c : Instr} {u : Agent} {s : State} {img : Img} (h : Issues c u s img) (checks : List (Bool × Code))
    (body : State → Issue) :
    issue c u s checks body = .next (match (match firstOf checks with | some e => Issue.halt e | none => body s) with
      | .skip t => t
      | o => granted c u s (settle u img s o)) := by
  obtain ⟨ht, w, hf, hd⟩ := h
  simp only [issue, ht, State.upTo_self, hf, hd, ite_true, granted] <;> rfl

theorem issue_idle {c : Instr} {u : Agent} {s : State} (h : turn s u = none) (checks : List (Bool × Code))
    (body : State → Issue) : issue c u s checks body = .next s := by
  unfold issue; rw [h]

/-- An instruction that does not stand at the unit's PC leaves the machine as it is. -/
theorem issue_other {c d : Instr} {u : Agent} {s : State} {img : Img} (h : Issues d u s img) (hn : c ≠ d)
    (checks : List (Bool × Code)) (body : State → Issue) : issue c u s checks body = .next s := by
  obtain ⟨ht, w, hf, hd⟩ := h
  simp only [issue, ht, State.upTo_self, hf, hd]
  rw [if_neg (Ne.symm hn)]

/-- A failing check halts the unit. -/
theorem issue_halt {c : Instr} {u : Agent} {s : State} {img : Img} (h : Issues c u s img) {checks : List (Bool × Code)} {e : Code}
    (hc : firstOf checks = some e) (body : State → Issue) :
    issue c u s checks body = .next (granted c u s (haltUnit u e s)) := by
  rw [issue_eq h, hc]; rfl

/-- An instruction that passes its checks and goes on. -/
theorem issue_go {c : Instr} {u : Agent} {s t : State} {img : Img} (h : MayIssue c u s img) (hn : NotLast u s img)
    {checks : List (Bool × Code)} (hc : firstOf checks = none) {body : State → Issue} (hb : body s = .go t) :
    issue c u s checks body = .next (granted c u s (setPc u (pcOf u s + 4) t)) := by
  rw [issue_eq h.1, hc]
  simp only [hb, settle]
  rw [if_neg hn, if_neg (by simp [h.2])]

/-- An instruction that passes its checks and jumps. -/
theorem issue_jump {c : Instr} {u : Agent} {s t : State} {img : Img} (h : MayIssue c u s img)
    {checks : List (Bool × Code)} (hc : firstOf checks = none) {body : State → Issue} {target : Int}
    (hb : body s = .jump target t) :
    issue c u s checks body = .next (granted c u s
      (if (img.loadOff : Int) ≤ target ∧ target < img.loadOff + img.codeSize then setPc u target.toNat (noteJump u t)
       else haltUnit u .outOfRange s)) := by
  rw [issue_eq h.1, hc]
  simp only [hb, settle]
  rw [if_neg (c := residueBad s u = true) (by simp [h.2])]

/-- A context whose turn it is is READY. -/
theorem MayIssue.ready {c : Instr} {u : Agent} {s : State} {img : Img} (h : MayIssue c u s img) : CtxReady u s := by
  cases u with
  | grotto k => trivial
  | spur l n =>
    have h := h.1.1
    simp only [turn] at h
    split at h
    · simp at h
    · rename_i x t' n' hc heq
      cases heq
      simp only [canIssue, activeTile] at hc
      split at hc
      · rename_i x hx
        split at hx
        · simp at hx
        · split at hc
          · rename_i c
            simp only [CtxReady, ctxAt, tileAt, hx]
            exact c.1
          · simp at hc
      · simp at hc
    · rename_i heq; cases heq

/-- The result of an instruction that changes its unit's registers alone. -/
theorem unitResult_of {c : Instr} {u : Agent} {s t t' : State} {pc : Nat} {gs vs : BitVec 5 → Nat} {ps : Nat → Word}
    (hr : RegsChange u s t) (hn : Noted t t') (h1 : pcOf u t = pc) (h2 : ∀ r, getG u t r = gs r)
    (h3 : ∀ r, getV u t r = vs r) (h4 : ∀ p, getP u t p = ps p) :
    UnitResult u s (granted c u s t') pc gs vs ps := by
  refine ⟨by simp [hn.pcOf, h1], by simp [hn.getG, h2], by simp [hn.getV, h3], by simp [hn.getP, h4], ?_, ?_⟩
  · refine ⟨fun i a => by rw [memOf_granted, hn.memOf]; exact hr.memory.1 i a, ?_⟩
    have hm := hr.memory.2
    obtain ⟨b, d, rfl⟩ := hn
    cases u with
    | grotto k => exact hm
    | spur l n => simp only [granted, finish, spendStep]; split <;> exact hm
  · obtain ⟨b, d, rfl⟩ := hn
    cases u with
    | grotto k => obtain ⟨pc, g, w, rfl⟩ := hr; exact ⟨pc, g, w, rfl⟩
    | spur l n =>
      obtain ⟨pc, g, v, p, rfl⟩ := hr
      refine ⟨pc, g, v, p, ?_⟩
      simp only [granted, finish, spendStep]
      split <;> rfl

/-- An instruction that writes one scalar register and goes on. -/
theorem writesG_of {c : Instr} {u : Agent} {s : State} {img : Img} (h : MayIssue c u s img) (hn : NotLast u s img)
    {checks : List (Bool × Code)} {body : State → Issue} {rd : BitVec 5} {v w : Nat}
    (he : exec c s = issue c u s checks body) (hc : firstOf checks = none) (hb : body s = .go (setG u rd w s))
    (hv : w % 2 ^ gWidth u = v) : WritesG c u s rd v := by
  refine ⟨_, he.trans (issue_go h hn hc hb),
    unitResult_of (regsChange_go h.ready (regsOr_setG s u rd w) _) (Noted.rfl' _) ?_ ?_ ?_ ?_⟩
    <;> simp [getG_setG, hv]

/-- An instruction that writes one vector register and goes on. -/
theorem writesV_of {c : Instr} {u : Agent} {s : State} {img : Img} (h : MayIssue c u s img) (hn : NotLast u s img)
    {checks : List (Bool × Code)} {body : State → Issue} {vd : BitVec 5} {v w : Nat}
    (he : exec c s = issue c u s checks body) (hc : firstOf checks = none) (hb : body s = .go (setV u vd w s))
    (hv : w % 2 ^ (8 * vBytes u) = v) : WritesV c u s vd v := by
  refine ⟨_, he.trans (issue_go h hn hc hb),
    unitResult_of (regsChange_go h.ready (.inr (regsChange_setV s u vd w)) _) (Noted.rfl' _) ?_ ?_ ?_ ?_⟩
    <;> simp [getV_setV, hv]

/-- An instruction that writes one predicate register and goes on. -/
theorem writesP_of {c : Instr} {l : Fin 512} {n : Fin 8} {s : State} {img : Img} (h : MayIssue c (.spur l n) s img)
    (hn : NotLast (.spur l n) s img) {checks : List (Bool × Code)} {body : State → Issue} {pd : Nat} {v : Word}
    (he : exec c s = issue c (.spur l n) s checks body) (hc : firstOf checks = none)
    (hb : body s = .go (setP (.spur l n) pd v s)) : WritesP c (.spur l n) s pd v := by
  refine ⟨_, he.trans (issue_go h hn hc hb),
    unitResult_of (regsChange_go h.ready (regsOr_setP s _ pd v) _) (Noted.rfl' _) ?_ ?_ ?_ ?_⟩
    <;> simp [getP_setP]

/-- An instruction that changes registers in any way and jumps into its code range. -/
theorem jumps_of {c : Instr} {u : Agent} {s t : State} {img : Img} (h : MayIssue c u s img)
    {checks : List (Bool × Code)} {body : State → Issue} {target : Int} {gs vs : BitVec 5 → Nat} {ps : Nat → Word}
    (he : exec c s = issue c u s checks body) (hc : firstOf checks = none) (hb : body s = .jump target t)
    (hi : (img.loadOff : Int) ≤ target ∧ target < img.loadOff + img.codeSize) (hr : t = s ∨ RegsChange u s t)
    (h2 : ∀ r, getG u t r = gs r) (h3 : ∀ r, getV u t r = vs r) (h4 : ∀ p, getP u t p = ps p) :
    ∃ y, exec c s = .next y ∧ UnitResult u s y target.toNat gs vs ps := by
  refine ⟨_, he.trans ((issue_jump h hc hb).trans (by rw [if_pos hi])),
    unitResult_of (regsChange_go h.ready hr _) ((noted_noteJump u t).setPc u _) ?_ ?_ ?_ ?_⟩
    <;> simp [h2, h3, h4]

/-! Values at the unit's width. -/

/-- A scalar register holds a value of the unit's width. -/
theorem getG_lt (u : Agent) (s : State) (r : BitVec 5) : getG u s r < 2 ^ gWidth u := by
  unfold getG
  split
  · exact Nat.two_pow_pos _
  · cases u <;> simp only [gWidth, isSpur] <;> exact BitVec.isLt _

theorem gBits_toNat (u : Agent) (s : State) (r : BitVec 5) : (gBits u s r).toNat = getG u s r := by
  simp only [gBits, BitVec.toNat_ofNat]; exact Nat.mod_eq_of_lt (getG_lt u s r)

theorem signed_toInt (u : Agent) (s : State) (r : BitVec 5) : signedOf (gWidth u) (getG u s r) = (gBits u s r).toInt := by
  have := getG_lt u s r
  have e : getG u s r = (gBits u s r).toNat := (gBits_toNat u s r).symm
  rw [e, signedOf, BitVec.toInt_eq_toNat_cond]
  have hw : 0 < gWidth u := by unfold gWidth; split <;> decide
  generalize gBits u s r = b at *
  generalize gWidth u = w at *
  have hb := b.isLt
  rw [Nat.mod_eq_of_lt hb]
  have : 2 ^ w = 2 * 2 ^ (w - 1) := by
    obtain ⟨k, rfl⟩ : ∃ k, w = k + 1 := ⟨w - 1, by omega⟩
    simp [Nat.pow_succ, Nat.mul_comm]
  simp only [this]
  split <;> split <;> first | rfl | omega

theorem unsigned_ofInt (w : Nat) (i : Int) : unsignedOf w i = (BitVec.ofInt w i).toNat := by
  simp [unsignedOf, BitVec.toNat_ofInt]

end Sys2Proof.Machine
end

