-- ==== Sys2Proof/Tests/Slice0.lean ====
section
/-! SUPPORT. Tests: ill-formed commands that the check refuses, one step on a small state, and for every statement with
hypotheses a state and operands that meet them. Expected values are the spec's, or worked out by hand from it. -/
namespace Sys2Proof.Tests
open Sys2Proof.Machine

set_option Elab.async false

/-- A command that is a register write is accepted up to its register's own rules, and what it leaves meets `P`. -/
def meets (c : Instr) (s : State) (P : State → Bool) : Bool :=
  match taken c s with
  | some t => P t
  | none => false

/-- The word of an Alori instruction. -/
def wordOf (c : Instr) : BitVec 32 := match encodeAlori c with | some (_, w) => w | none => 0
/-- The state with the word of an Alori instruction at the PC of its unit; any other command leaves it as it is. -/
def place (c : Instr) (s : State) : State :=
  match encodeAlori c with
  | some (.spur t n, w) => s.updTile (tileAt s t) fun x => { x with
      store := x.store.writeBytes (pcOf (.spur t n) s) (bytesOf 4 w.toNat) }
  | some (.grotto k, w) => s.setGrotto k { s.grotto k with
      ls := (s.grotto k).ls.writeBytes (pcOf (.grotto k) s) (bytesOf 4 w.toNat) }
  | none => s

/-- The command, with its word in place, leads to a next state of which `P` holds. -/
def leads (c : Instr) (s : State) (P : State → Bool) : Bool :=
  match exec c (place c s) with
  | .next t => P t
  | _ => false

/-- Registers set on a state. -/
def withRegs (l : List (Blk × Nat × Nat)) (s : State) : State :=
  l.foldl (fun s x => rset s x.1 x.2.1 (BitVec.ofNat 64 x.2.2)) s
/-- Values in effect set on a state. -/
def withEff (l : List (Blk × Nat × Nat)) (s : State) : State :=
  l.foldl (fun s x => rsetEff s x.1 x.2.1 (BitVec.ofNat 64 x.2.2)) s

/-- A brought-up device: both ports' links are up; cluster 0 (class 128, no hole) and counter group 0 belong to
partition 0 of port 0, as do grotto core 0 and granules 0 to 15 of stack 0; cluster 1 and core 1 belong to nobody. -/
def up : State :=
  withEff [(.part 0, rPartComp, 2 ^ 63 + 1), (.part 0, rPartHvcg, 1), (.grt 0, rGrtOwnk 0, 2 ^ 63)]
    (withRegs [(.bup, rBupState, 12 * 2 ^ 44 + 2 * 2 ^ 42), (.bup, rBupRowmapr 0, 128 * 2 ^ 56 + 31 * 2 ^ 8 + 1),
      (.clk, rClkPll, 3 + 3 * 2 ^ 32), (.bup, rBupRowmapr 1, 128 * 2 ^ 56 + 31 * 2 ^ 8 + 1)]
      { State.reset with
        bup := { vglow := true, fusesRead := true, testN := true }
        port0 := { up := true, vfs := 32 }, port1 := { up := true, vfs := 32 } })

/-- The code range of the units in these states. -/
def img : Img := ⟨0, 64, 0⟩
/-- The units. -/
abbrev sp : Agent := .spur 0 0
abbrev gr : Agent := .grotto 0

/-- `up` with context 0 of tile 0 and grotto core 0 ready at the start of their images, with registers 1, 2 and 3. -/
def ready : State :=
  (up.setTile 0 { img := some img, ctx := [(0, { st := .ready, g := [(1, 40), (2, 8), (3, 0xFFFFFFFFFFFFFFF0)] })] }).setGrotto 0
    { img := some img, st := .ready, g := [(1, 40), (2, 8), (3, 0xFFFFFFF0)] }

/-- Register 3 after an instruction, and that the next word is next. -/
def gives (u : Agent) (c : Instr) (v : Nat) : Bool := leads c ready fun t => getG u t 3 == v && pcOf u t == 4

/-! Units: the hypotheses that their statements share. -/

/-- What the statements ask of a unit that issues `c`, as a value. -/
def mayIssue (c : Instr) (u : Agent) (s : State) : Bool :=
  turn s u == some (img, s.cyc) && fetch u s == (some (wordOf c), s) && decodeAlori u (wordOf c) == some c && !residueBad s u
theorem mayIssue_of {c : Instr} {u : Agent} {s : State} (h : mayIssue c u s = true) : MayIssue c u s img := by
  simp only [mayIssue, Bool.and_eq_true, beq_iff_eq, Bool.not_eq_true'] at h
  exact ⟨⟨h.1.1.1, _, h.1.1.2, h.1.2⟩, h.2⟩

/-- An instruction of each unit, its word in place. -/
abbrev spurAdd : Instr := .add sp ⟨3, 1, 2⟩
abbrev grotAdd : Instr := .add gr ⟨3, 1, 2⟩

theorem witness_units : MayIssue spurAdd sp (place spurAdd ready) img ∧ NotLast sp (place spurAdd ready) img ∧
    MayIssue grotAdd gr (place grotAdd ready) img ∧ NotLast gr (place grotAdd ready) img :=
  ⟨mayIssue_of (by decide +kernel), by unfold NotLast; decide +kernel, mayIssue_of (by decide +kernel), by unfold NotLast; decide +kernel⟩

theorem witness_last : MayIssue spurAdd sp (place spurAdd (setPc sp 60 ready)) img ∧ ¬ NotLast sp (place spurAdd (setPc sp 60 ready)) img :=
  ⟨mayIssue_of (by decide +kernel), by unfold NotLast; decide +kernel⟩

/-- The word of the instruction is at the PC of a unit, but another instruction is commanded; a unit whose word defines none. -/
theorem witness_other : spurAdd ≠ .sub sp ⟨3, 1, 2⟩ ∧ decodeAlori sp 0 = none ∧ noInstrCode 0 = .illegalOpcode ∧
    (turn ready sp == some (img, ready.cyc) && (fetch sp ready).1 == some 0) = true := by decide +kernel

/-! Scalar instructions: results computed by hand from Table ALR-3 and Table ALR-4. -/

theorem test_scalar_arithmetic :
    (gives sp (.add sp ⟨3, 1, 2⟩) 48 && gives sp (.sub sp ⟨3, 2, 1⟩) (2 ^ 64 - 32) && gives sp (.mul sp ⟨3, 3, 3⟩) 256 &&
      gives sp (.mulh sp ⟨3, 3, 3⟩) 0 && gives sp (.mulhu sp ⟨3, 3, 3⟩) (2 ^ 64 - 32) && gives sp (.min sp ⟨3, 1, 3⟩) (2 ^ 64 - 16) &&
      gives sp (.minu sp ⟨3, 1, 3⟩) 40 && gives sp (.max sp ⟨3, 1, 3⟩) 40 && gives sp (.maxu sp ⟨3, 1, 3⟩) (2 ^ 64 - 16)) = true := by
  decide +kernel

theorem test_scalar_bits :
    (gives sp (.and sp ⟨3, 1, 2⟩) 8 && gives sp (.or sp ⟨3, 1, 2⟩) 40 && gives sp (.xor sp ⟨3, 1, 2⟩) 32 &&
      gives sp (.sll sp ⟨3, 1, 2⟩) 10240 && gives sp (.srl sp ⟨3, 3, 2⟩) (2 ^ 56 - 1) && gives sp (.sra sp ⟨3, 3, 2⟩) (2 ^ 64 - 1) &&
      gives sp (.sll sp ⟨3, 2, 1⟩) (8 * 2 ^ 40) && gives gr (.sll gr ⟨3, 2, 1⟩) (8 * 2 ^ 8) && gives sp (.clz sp ⟨3, 1, 0⟩) 58 &&
      gives gr (.clz gr ⟨3, 1, 0⟩) 26 && gives sp (.clz sp ⟨3, 0, 0⟩) 64 && gives sp (.popc sp ⟨3, 1, 0⟩) 2 &&
      gives sp (.cmpeq sp ⟨3, 1, 1⟩) 1 && gives sp (.cmplt sp ⟨3, 3, 1⟩) 1 && gives sp (.cmpltu sp ⟨3, 3, 1⟩) 0) = true := by
  decide +kernel

theorem test_scalar_immediates :
    (gives sp (.addi sp ⟨3, 1, 0xFFFF⟩) 39 && gives sp (.andi sp ⟨3, 3, 0xFFFF⟩) 0xFFF0 && gives sp (.ori sp ⟨3, 1, 0x8000⟩) 0x8028 &&
      gives sp (.xori sp ⟨3, 1, 8⟩) 32 && gives sp (.shi sp ⟨3, 1, 2⟩) 160 && gives sp (.shi sp ⟨3, 3, 0x44⟩) (2 ^ 60 - 1) &&
      gives sp (.shi sp ⟨3, 3, 0x84⟩) (2 ^ 64 - 1) && gives sp (.movz sp ⟨3, 3, 0xABCD⟩) (0xABCD * 2 ^ 48) &&
      gives sp (.movk sp ⟨3, 1, 0⟩) 0xFFFFFFFF0000FFF0) = true := by
  decide +kernel

/-- g0 reads as zero and discards writes; every field at its last value. -/
theorem test_g0 : (leads (.add sp ⟨0, 1, 2⟩) ready (fun t => getG sp t 0 == 0 && pcOf sp t == 4) &&
    leads (.add sp ⟨31, 31, 31⟩) ready (fun t => getG sp t 31 == 0)) = true := by decide +kernel

/-! Illegal words (R118): the opcode before reserved bits, reserved bits before values. -/

theorem witness_form : formCode (.add sp ⟨3, 1, 2⟩) = none ∧ formCode (.shi sp ⟨3, 1, 0x13F⟩) = some .reservedBitSet ∧
    formCode (.shi sp ⟨3, 1, 0xC0⟩) = some .illegalValue ∧ formCode (.vsel gr ⟨1, 2, 3, 0, false, 7⟩) = some .illegalOpcode ∧
    formCode (.add gr ⟨3, 16, 2⟩) = some .illegalValue ∧ formCode (.movz gr ⟨3, 1, 0⟩) = none ∧
    formCode (.movk gr ⟨3, 2, 0⟩) = some .illegalValue ∧ formCode (.movk sp ⟨3, 4, 0⟩) = some .reservedBitSet := by decide

theorem test_halt : leads (.shi sp ⟨3, 1, 0x13F⟩) ready (fun t =>
    (ctxAt t 0 0).st == .halted && (ctxAt t 0 0).code == Code.reservedBitSet && getG sp t 3 == getG sp ready 3 && pcOf sp t == 0 &&
      SMap.get ⟨0, 0, 0⟩ t.glow.pend (srcTile 0) == ⟨srcTile 0, Code.reservedBitSet, 0⟩) = true := by decide +kernel

theorem test_halt_grotto : leads (.vsel gr ⟨1, 2, 3, 0, false, 7⟩) ready (fun t =>
    (t.grotto 0).st == .halted && (t.grotto 0).code == Code.illegalOpcode &&
      SMap.get ⟨0, 0, 0⟩ t.glow.pend (srcGrotto 0) == ⟨srcGrotto 0, Code.illegalOpcode, 0xB000⟩) = true := by decide +kernel

/-- A unit that is not READY issues nothing. -/
theorem witness_idle : turn up sp = none ∧ unitOf (.nop sp ⟨0, 0, 0⟩) = some sp := by decide +kernel

/-! Branches: to a word of the code range, to its end, and past it. -/

/-- Where a unit stands after an instruction, and whether it has halted with OUT_OF_RANGE. -/
def lands (u : Agent) (c : Instr) (pc : Nat) (halted : Bool) : Bool := leads c ready fun t =>
  pcOf u t == pc && (match u with | .spur l n => (ctxAt t l n).st == .halted | .grotto k => (t.grotto k).st == .halted) == halted

theorem test_branches :
    (lands sp (.beq sp ⟨1, 1, 3⟩) 12 false && lands sp (.bne sp ⟨1, 1, 3⟩) 4 false && lands sp (.blt sp ⟨3, 1, 15⟩) 60 false &&
      lands sp (.bltu sp ⟨3, 1, 15⟩) 4 false && lands sp (.bge sp ⟨1, 3, 16⟩) 0 true && lands sp (.bgeu sp ⟨3, 1, 0xFFFF⟩) 0 true &&
      lands gr (.beq gr ⟨0, 0, 2⟩) 8 false) = true := by decide +kernel

theorem test_jumps :
    (lands sp (.jal sp ⟨5⟩) 20 false && lands sp (.jal sp ⟨16⟩) 0 true && lands sp (.jalr sp ⟨3, 1, 0⟩) 40 false &&
      lands sp (.jalr sp ⟨3, 0, 16⟩) 0 true && lands gr (.jalr gr ⟨3, 2, 1⟩) 12 false &&
      leads (.jal sp ⟨5⟩) ready (fun t => getG sp t 31 == 4) && leads (.jal gr ⟨5⟩) ready (fun t => getG gr t 15 == 4) &&
      leads (.jalr sp ⟨1, 1, 0⟩) ready (fun t => getG sp t 1 == 4)) = true := by decide +kernel

/-- A JALR target that is no multiple of 4. -/
theorem witness_jalr : (getG sp (setG sp 1 2 ready) 1 + 4 * (0 : BitVec 16).toInt) % 4 ≠ 0 := by decide +kernel

/-! Loads and stores: the boundaries of the spaces. -/

/-- `ready` with bytes in the store, the slice, the local store and the stack, and a word in the accumulators. -/
def bytes : State :=
  let s := ready.updTile 0 fun x => { x with store := [(40, 0x80), (41, 0xFF)], slice := [(40, 0x11)], acc := [(10, 0x12345678)] }
  s.setGrotto 0 { s.grotto 0 with ls := [(40, 0x80)] }

theorem witness_fits : accessFits sp bytes 0 0x3FFFF8 8 ∧ accessFits sp bytes 1 0xFFFFFF8 8 ∧ accessFits gr bytes 0 0xFFF8 8 ∧
    ¬ accessFits sp bytes 0 0x3FFFFC 8 ∧ ¬ accessFits sp bytes 0 0x400000 8 := by unfold accessFits; decide +kernel

theorem test_loads :
    (leads (.ld sp ⟨3, 1, 0, 1, 0⟩) bytes (fun t => getG sp t 3 == 0xFF80) && leads (.lds sp ⟨3, 1, 0, 0, 0⟩) bytes (fun t => getG sp t 3 == 2 ^ 64 - 128) &&
      leads (.ld sp ⟨3, 1, 1, 0, 0⟩) bytes (fun t => getG sp t 3 == 0x11) && leads (.ld sp ⟨3, 1, 2, 2, 0⟩) bytes (fun t => getG sp t 3 == 0x12345678) &&
      leads (.lds gr ⟨3, 1, 0, 0, 0⟩) bytes (fun t => getG gr t 3 == 2 ^ 32 - 128) &&
      leads (.ld sp ⟨3, 2, 0, 0, 0xFFF⟩) bytes (fun t => getG sp t 3 == 0)) = true := by decide +kernel

theorem witness_store : unitGroup sp bytes = none ∧ inCode (some img) 64 8 = false ∧ inCode (some img) 60 8 = true := by decide +kernel

theorem test_stores :
    (leads (.st sp ⟨3, 1, 0, 2, 6⟩) bytes (fun t => (t.tile 0).store.readBytes 64 4 == [0xF0, 0xFF, 0xFF, 0xFF] && (t.tile 0).store.read 68 == 0) &&
      leads (.st sp ⟨3, 1, 0, 0, 0⟩) bytes (fun t => (ctxAt t 0 0).code == Code.illegalValue) &&
      leads (.st sp ⟨3, 1, 3, 3, 0⟩) bytes (fun t => (ctxAt t 0 0).code == Code.wrongState) &&
      leads (.st sp ⟨3, 0, 0, 3, 0x800⟩) bytes (fun t => (ctxAt t 0 0).code == Code.outOfRange)) = true := by decide +kernel

/-- A load from AC: the bank free, the bank in use, and a poisoned row. -/
theorem witness_acc : bankBusy (bytes.tile 0) 0 0 = false ∧ formCode (.ld sp ⟨3, 1, 2, 2, 0⟩) = none ∧
    formCode (.ld sp ⟨3, 1, 2, 1, 0⟩) = some .illegalValue ∧ scalarAddr sp ⟨3, 1, 2, 2, 0⟩ bytes = 40 := by decide +kernel

/-! Vector instructions: lane 0 of each result by hand from the tables. -/

/-- `ready` with vector registers 1 and 2 and predicate 1: lanes of v1 are 0x7F (INT8), of v2 1. -/
def vecs : State :=
  let s := setV sp 1 0x3F800000_0000007F (setV sp 2 0x40000000_00000001 (setP sp 1 1 ready))
  setV gr 1 0x7F (setV gr 2 1 s)

/-- Vector register 3 after an instruction. -/
def vgives (u : Agent) (c : Instr) (v : Nat) : Bool := leads c vecs fun t => getV u t 3 == v && pcOf u t == 4

theorem test_vector_int :
    (vgives sp (.vadd sp ⟨3, 1, 2, 1, false, 0⟩) 0x80 && vgives sp (.vadd sp ⟨3, 1, 2, 1, true, 0⟩) 0x7F &&
      vgives sp (.vsub sp ⟨3, 2, 1, 1, false, 0⟩) 0x82 && vgives sp (.vmul sp ⟨3, 1, 1, 1, true, 1⟩) 0x3F01 &&
      vgives sp (.vmax sp ⟨3, 1, 2, 1, false, 0⟩) 0x7F && vgives sp (.vmin sp ⟨3, 1, 2, 1, false, 0⟩) 1 &&
      vgives sp (.vand sp ⟨3, 1, 2, 1, false, 0⟩) 1 && vgives sp (.vor sp ⟨3, 1, 2, 1, false, 0⟩) 0x7F &&
      vgives sp (.vxor sp ⟨3, 1, 2, 1, false, 0⟩) 0x7E && vgives sp (.vsll sp ⟨3, 1, 2, 1, false, 0⟩) 0xFE &&
      vgives sp (.vsra sp ⟨3, 1, 2, 1, false, 0⟩) 0x3F && vgives sp (.vneg sp ⟨3, 1, 0, 1, false, 0⟩) 0x81 &&
      vgives sp (.vabs sp ⟨3, 1, 0, 1, false, 0⟩) 0x7F && vgives sp (.vmov sp ⟨3, 1, 0, 1, false, 0⟩) 0x7F &&
      vgives gr (.vadd gr ⟨3, 1, 2, 0, false, 2⟩) 0x80) = true := by decide +kernel

/-- 1.0 in FP32 lane 1: sum, product, fused and widened, compared, and its exponent. -/
theorem test_vector_float :
    (vgives sp (.vadd sp ⟨3, 1, 1, 0, false, 6⟩) 0x4000_0000_0000_00FE && vgives sp (.vsub sp ⟨3, 1, 1, 0, false, 7⟩) 0 &&
      vgives sp (.vmul sp ⟨3, 2, 2, 0, false, 7⟩) 0x40800000_00000000 && vgives sp (.vneg sp ⟨3, 1, 0, 1, false, 7⟩) 0x8000007F &&
      leads (.vcmplt sp ⟨2, 1, 2, 0, false, 7⟩) vecs (fun t => getP sp t 2 == 0x10) &&
      leads (.vcmpeq sp ⟨2, 1, 1, 1, false, 7⟩) vecs (fun t => getP sp t 2 == 1) &&
      leads (.vcmple sp ⟨0, 1, 1, 0, false, 7⟩) vecs (fun t => getP sp t 0 == Word.mask 63 0)) = true := by decide +kernel

theorem test_vector_moves :
    (vgives sp (.vsel sp ⟨3, 1, 2, 1, false, 0⟩) 0x40000000_0000007F && vgives sp (.vbcast sp ⟨3, 1, 0, 1, false, 2⟩) 40 &&
      vgives sp (.vperm sp ⟨3, 1, 2, 1, false, 0⟩) 0 && vgives sp (.vins sp ⟨3, 1, 0, 0, false, 2⟩) 40 &&
      leads (.vextr sp ⟨3, 1, 0, 0, false, 0⟩) vecs (fun t => getG sp t 3 == 0x7F) &&
      leads (.vmovp sp ⟨2, 1, 0, 0, false, 0⟩) vecs (fun t => getP sp t 2 == 40) &&
      leads (.vmovg sp ⟨3, 1, 0, 0, false, 0⟩) vecs (fun t => getG sp t 3 == 1)) = true := by decide +kernel

theorem test_vector_rest :
    (vgives sp (.vcvt sp ⟨3, 1, 1, 0, false, 0⟩) 0x3F_FF80_0000_0000_0000_0000_0000_007F &&
      leads (.vredSum sp ⟨3, 1, 0, 0, true, 0⟩) vecs (fun t => getG sp t 3 == 62) &&
      leads (.vredMax sp ⟨3, 1, 0, 0, false, 0⟩) vecs (fun t => getG sp t 3 == 0x7F) &&
      leads (.vredMin sp ⟨3, 1, 0, 0, false, 0⟩) vecs (fun t => getG sp t 3 == 2 ^ 64 - 128) &&
      leads (.vredAmax sp ⟨3, 1, 0, 0, false, 0⟩) vecs (fun t => getG sp t 3 == 128) &&
      vgives sp (.vdot sp ⟨3, 1, 2, 0, false, 0⟩) 0xFC0_0000007F &&
      vgives sp (.vgetexp sp ⟨3, 1, 0, 0, false, 7⟩) (0x80000000_80000000_80000000_80000000_80000000_80000000_80000000_80000000_80000000_80000000_80000000_80000000_80000000_80000000_00000000_FFFFFF71) &&
      leads (.vfma sp ⟨3, 2, 2, 1, false, 6⟩) vecs (fun t => pcOf sp t == 4) &&
      leads (.vscale sp ⟨3, 1, 0, 0, false, 7⟩) vecs (fun t => getV sp t 3 == 0x3F800000_0000007F)) = true := by decide +kernel

theorem witness_vector_forms :
    formCode (.exp2 sp ⟨3, 1, 0, 0, false, 7⟩) = none ∧ formCode (.rcp gr ⟨3, 1, 0, 0, false, 7⟩) = none ∧
      formCode (.rsqrt sp ⟨3, 1, 0, 0, false, 7⟩) = none ∧ formCode (.rsqrt gr ⟨3, 1, 0, 0, false, 7⟩) = some .illegalOpcode ∧
      formCode (.vadd gr ⟨3, 1, 2, 0, false, 1⟩) = some .illegalValue ∧ formCode (.vadd sp ⟨3, 1, 2, 0, true, 7⟩) = some .illegalValue ∧
      formCode (.vcvt sp ⟨3, 1, 1 + 8, 0, false, 0⟩) = none ∧ formCode (.vcvt sp ⟨3, 1, 1 + 16, 0, false, 0⟩) = some .illegalValue ∧
      formCode (.vfma sp ⟨3, 1, 2, 0, false, 0⟩) = some .illegalValue ∧ formCode (.vdot sp ⟨3, 1, 2, 0, false, 7⟩) = some .illegalValue ∧
      laneFloat 2 = false ∧ laneFloat 3 = true := by decide +kernel

/-! Counters. -/

/-- `ready` with counter 5 of tile 0 at 10, counter 3 of core 0 at 2, and operands for them in registers 4 to 6. -/
def counts : State :=
  let s := ready.updTile 0 fun x => { x with cnt := [(5, 10)] }
  let s := s.setGrotto 0 { s.grotto 0 with cnt := [(3, 2)] }
  let s := setG sp 4 0xFFF05 (setG sp 5 10 (setG sp 6 5 s))
  setG gr 4 0xFFF03 (setG gr 5 3 (setG gr 6 3 s))

theorem witness_counters :
    counterOperand sp counts (getG sp counts 4) = some (devId counts, 0xFFF, 5) ∧ holderOf counts ⟨0, 5⟩ = some (.tile 0 0 5) ∧
      holderPart counts (.tile 0 0 5) = some 0 ∧ unitPart counts sp = some 0 ∧ mayWait sp counts ⟨0, 5⟩ = true ∧
      counterOperand gr counts (getG gr counts 4) = some (devId counts, 0xFFF, 3) ∧ counterOperand sp counts (2 ^ 34) = none ∧
      counterOperand sp counts (2 ^ 63 + 2 ^ 20 + 5) = some (1, 0, 5) ∧ partOfTile counts 0 = some 0 ∧
      holderOf counts (grottoCnt 0 8) = none := by decide +kernel

theorem test_adds :
    (leads (.cadd sp ⟨0, 4, 2, 0⟩) counts (fun t => t.adds == [⟨⟨0, 5⟩, 8, 2⟩]) &&
      leads (.csigl sp ⟨0, 0, 0x0305⟩) counts (fun t => t.adds == [⟨⟨0, 5⟩, 3, 2⟩]) &&
      leads (.cadd gr ⟨0, 4, 2, 0⟩) counts (fun t => t.adds == [⟨⟨0x200, 3⟩, 8, 4⟩]) &&
      leads (.csigl gr ⟨0, 0, 0x0308⟩) counts (fun t => (t.grotto 0).code == Code.outOfRange)) = true := by decide +kernel

theorem test_waits :
    (leads (.cwait sp ⟨0, 4, 5, 0⟩) counts (fun t => (ctxAt t 0 0).st == .ready && pcOf sp t == 4) &&
      leads (.cwait sp ⟨0, 4, 5, 6⟩) counts (fun t => (ctxAt t 0 0).wait == .counter ⟨0, 5⟩ 15 none none && (ctxAt t 0 0).st == .wait) &&
      leads (.cwait sp ⟨0, 4, 3, 1⟩) counts (fun t => (ctxAt t 0 0).code == Code.waitUnreachable) &&
      leads (.cwaitl sp ⟨0, 5, 5⟩) counts (fun t => (ctxAt t 0 0).st == .ready) &&
      leads (.cwaitl gr ⟨0, 5, 3⟩) counts (fun t => (t.grotto 0).st == .wait && (t.grotto 0).wait == .counter ⟨0x200, 3⟩ 3 none none) &&
      leads (.cwaitl gr ⟨0, 5, 8⟩) counts (fun t => (t.grotto 0).code == Code.outOfRange)) = true := by decide +kernel

theorem test_reads :
    (leads (.crd sp ⟨3, 6, 0, 0⟩) counts (fun t => getG sp t 3 == 10) && leads (.crdf sp ⟨3, 6, 0, 0⟩) counts (fun t => getG sp t 3 == 0) &&
      leads (.crdh gr ⟨3, 6, 0, 0⟩) counts (fun t => getG gr t 3 == 0) && leads (.crd gr ⟨3, 6, 0, 0⟩) counts (fun t => getG gr t 3 == 2) &&
      leads (.crd gr ⟨3, 2, 0, 0⟩) counts (fun t => (t.grotto 0).code == Code.outOfRange) &&
      leads (.cgstat sp ⟨3, 0, 0, 0⟩) counts (fun t => getG sp t 3 == 0) && leads (.rdid sp ⟨3, 0, 0⟩) counts (fun t => getG sp t 3 == 0) &&
      leads (.qstat sp ⟨3, 0, 0, 0⟩) counts (fun t => getG sp t 3 == queueWord counts 0 {}) &&
      leads (.rdstep sp ⟨3, 0, 0⟩) counts (fun t => getG sp t 3 == 0) && leads (.rdcyc sp ⟨3, 0, 0⟩) counts (fun t => getG sp t 3 == 0)) = true := by
  decide +kernel

/-! Commit groups, queues, the end of a program. -/

/-- `counts` with an open group of context 0 that holds the most it may, and with a full queue 0. -/
def opened : State :=
  counts.updTile 0 fun x => { x with
    group := some { ctx := 0, lines := (List.range 32).map fun i => ⟨.ts, 64 * (i + 1), [], none, false⟩ }
    qs := [(0, { held := List.replicate 32 ⟨0, 0, 0⟩ })] }

theorem witness_groups : openGroup counts 0 0 = none ∧ (openGroup opened 0 0).isSome = true ∧ (counts.tile 0).group = none ∧
    clusterPaused counts 0 = false ∧ ((opened.tile 0).group.getD { ctx := 9 }).usedLines = 32 ∧
    (queueAt opened 0 0).held.length = 32 ∧ (queueAt opened 0 1).held.length = 0 ∧ (opened.tile 0).tpin = none ∧
    nextStep (opened.part 0) (curStep opened 0) = none ∧ opened.walks = [] := by decide +kernel

theorem test_groups :
    (leads (.cgbegin sp ⟨3, 0, 0, 0⟩) counts (fun t => getG sp t 3 == 0 && (openGroup t 0 0).isSome) &&
      leads (.cgbegin sp ⟨3, 0, 0, 0⟩) opened (fun t => getG sp t 3 == Code.wrongState.toNat) &&
      leads (.cgcommit sp ⟨0, 6, 0, 0⟩) opened (fun t => ((t.tile 0).group.map (·.phase)) == some (.committing 5 0)) &&
      leads (.cgcommit sp ⟨0, 6, 0, 0⟩) counts (fun t => (ctxAt t 0 0).code == Code.wrongState) &&
      leads (.cgabort sp ⟨0, 0, 0, 0⟩) opened (fun t => (t.tile 0).group == none && (ctxAt t 0 0).cgCode == Code.cgAbortSoftware) &&
      leads (.st sp ⟨3, 1, 0, 3, 0x7FF⟩) opened (fun t => ((t.tile 0).group.bind (·.aborted)) == some Code.cgAbortCapacity) &&
      leads (.st sp ⟨3, 2, 0, 3, 7⟩) opened (fun t => ((t.tile 0).group.bind (·.aborted)) == none &&
        ((t.tile 0).group.map fun g => g.lines.length) == some 32)) = true := by decide +kernel

theorem test_queues :
    (leads (.qpush sp ⟨0, 0, 1, 0⟩) opened (fun t => (ctxAt t 0 0).wait == .slot 0 none && pcOf sp t == 0) &&
      leads (.qpush sp ⟨0, 1, 1, 0⟩) opened (fun t => (queueAt t 0 1).held.length == 1 && pcOf sp t == 4) &&
      leads (.qpushn sp ⟨3, 0, 1, 0⟩) opened (fun t => getG sp t 3 == Code.queueFull.toNat) &&
      leads (.qpushn sp ⟨3, 2, 1, 0⟩) opened (fun t => getG sp t 3 == 0 && (queueAt t 0 2).held.length == 1) &&
      leads (.qflush sp ⟨0, 0, 0, 0⟩) opened (fun t => (queueAt t 0 0).held == [] && (queueAt t 0 0).st == .run)) = true := by decide +kernel

theorem test_staged :
    (leads (.twr sp ⟨0, 0, 1, 0⟩) opened (fun t => ((t.tile 0).group.map (·.ops)) == some [.twr 0 40]) &&
      leads (.twr sp ⟨0, 1, 1, 0⟩) opened (fun t => (ctxAt t 0 0).code == Code.illegalValue) &&
      leads (.kvapp sp ⟨0, 1, 1, 0⟩) opened (fun t => (ctxAt t 0 0).code == Code.illegalValue) &&
      leads (.kvapp sp ⟨0, 0, 1, 0⟩) counts (fun t => (ctxAt t 0 0).code == Code.wrongState) &&
      leads (.tpin sp ⟨0, 6, 0, 0⟩) counts (fun t => t.adds == [⟨⟨0, 5⟩, 1, 2⟩]) &&
      leads (.tpin sp ⟨0, 0, 0, 0⟩) counts (fun t => t.adds == [])) = true := by decide +kernel

theorem test_system :
    (leads (.nop sp ⟨0, 0, 0⟩) ready (fun t => pcOf sp t == 4) && leads (.endProg sp ⟨0, 0, 0⟩) ready (fun t => (ctxAt t 0 0).st == .idle) &&
      leads (.endProg sp ⟨0, 0, 0⟩) opened (fun t => (ctxAt t 0 0).code == Code.wrongState && (ctxAt t 0 0).cgCode == Code.cgAbortFault) &&
      leads (.endProg gr ⟨0, 0, 0⟩) ready (fun t => (t.grotto 0).st == .idle)) = true := by decide +kernel

/-- A held translation for a group's VA store and append. -/
theorem witness_tbuf : tbufFind [⟨0, 0, 65536, some 0x1000000000, false, false⟩] 0 64 ≠ none := by decide +kernel

/-! Queues and the matrix engine. -/

/-- A queue whose head has passed its checks and may start from cycle 5. -/
def atHead (e : QEntry) : Queue := { held := [e], headReady := true, headMet := some 5 }
/-- An entry with a command and an empty clause. -/
def cmd (c : BitVec 128) : QEntry := ⟨c, 0, 0⟩

/-- MXLOAD of a 32 × 8 FP8 block from the start of the tile store, rows 128 bytes apart (R151). -/
def loadCmd : BitVec 128 := 1 + 1 <<< 41
/-- MXMUL of 16 activation rows of depth 32 with it, rows 64 bytes apart from 0x2000 (R152). -/
def mulCmd : BitVec 128 := 2 + 0x80 <<< 35 + 1 <<< 51
/-- MXDRAIN of the first row of bank 0 to 0x4000, FP32 (R153). -/
def drainCmd : BitVec 128 := 3 + 10 <<< 8 + 0x100 <<< 36 + 1 <<< 52
/-- MVCOPY of 64 bytes from the start of the store to the slice (R155). -/
def copyCmd : BitVec 128 := 0x11 + 1 <<< 10 + 0x40 <<< 64
/-- MVTRAN of 32 × 32 bytes within the store, from 0 to 0x1000 (R156). -/
def tranCmd : BitVec 128 := 0x12 + 2 <<< 11 + 0x1000 <<< 70 + 2 <<< 98 + 2 <<< 114
/-- FSEND of 64 bytes to device 1 (R158). -/
def sendCmd : BitVec 128 := 0x21 + 1 <<< 37

/-- `up` with the given queues on tile 0, and 1.0 (FP8) as the first weight and the first activation. -/
def queued (q0 q1 q2 : Queue) : State :=
  up.setTile 0 { qs := [(0, q0), (1, q1), (2, q2)], store := [(0, 0x38), (0x2000, 0x38)] }

/-- The block that `loadCmd` loads. -/
def blk : WBlock := { fmt := 0, k := 32, n := 8, w := 0x38 :: List.replicate 255 0, sc := [], chk := false }
/-- A command in flight, due on cycle 100. -/
def inFlight (c : BitVec 128) : Queue := { flights := [{ entry := cmd c, start := 5, due := 100, blk := some blk, act := [0x38] }] }

theorem witness_heads :
    staticCheck ((queued { held := [cmd loadCmd] } {} {}).upTo 0) 0 0 (cmd loadCmd) = none ∧
      staticCheck ((queued { held := [cmd copyCmd] } {} {}).upTo 0) 0 0 (cmd copyCmd) = some .illegalOpcode ∧
      staticCheck up 0 0 (cmd mulCmd) = none ∧ staticCheck up 0 0 (cmd drainCmd) = none ∧ staticCheck up 0 0 (cmd 4) = none ∧
      staticCheck up 0 1 (cmd copyCmd) = none ∧ staticCheck up 0 1 (cmd tranCmd) = none ∧
      staticCheck up 0 2 (cmd sendCmd) = none ∧ tileResetting up 0 = false := by decide +kernel

theorem test_heads :
    (leads (.queueHead 0 0) (queued { held := [cmd loadCmd] } {} {}) (fun t => (queueAt t 0 0).headReady && (queueAt t 0 0).headMet == some 0) &&
      leads (.queueHead 0 0) (queued { held := [cmd copyCmd] } {} {}) (fun t =>
        (queueAt t 0 0).st == .halted && (queueAt t 0 0).last == Code.illegalOpcode && (queueAt t 0 0).held.length == 1)) = true := by decide +kernel

theorem witness_starts :
    headToStart (queued (atHead (cmd loadCmd)) {} {}) 0 0 1 = some (0, cmd loadCmd) ∧
      headToStart (queued (atHead (cmd mulCmd)) {} {}) 0 0 2 = some (0, cmd mulCmd) ∧
      headToStart (queued (atHead (cmd drainCmd)) {} {}) 0 0 3 = some (0, cmd drainCmd) ∧
      headToStart (queued (atHead (cmd 4)) {} {}) 0 0 4 = some (0, cmd 4) ∧
      headToStart (queued {} (atHead (cmd copyCmd)) {}) 0 1 0x11 = some (0, cmd copyCmd) ∧
      headToStart (queued {} (atHead (cmd tranCmd)) {}) 0 1 0x12 = some (0, cmd tranCmd) ∧
      headToStart (queued {} {} (atHead (cmd sendCmd))) 0 2 0x21 = some (0, cmd sendCmd) ∧
      matrixBusy ((queued (atHead (cmd 4)) {} {}).tile 0) = [] ∧ behindBadDrain ((queued (atHead (cmd loadCmd)) {} {}).tile 0) loadCmd = false := by
  decide +kernel

theorem witness_clean : ∀ a, eccCheck up (.store 0) a = .clean := fun _ => rfl

theorem test_starts :
    (leads (.mxload 0) (queued (atHead (cmd loadCmd)) {} {}) (fun t =>
        ((t.tile 0).loadDue.map (·.2)) == some 141 && ((t.tile 0).loadDue.map (·.1.w.length)) == some 256 &&
          ((t.tile 0).qOf 0).flights.map (·.due) == [141]) &&
      leads (.mxmul 0) ((queued (atHead (cmd mulCmd)) {} {}).updTile 0 fun x => { x with active := some blk }) (fun t =>
        ((t.tile 0).qOf 0).flights.map (·.due) == [5 + 264 + 16 - 1]) &&
      leads (.mxmul 0) (queued (atHead (cmd mulCmd)) {} {}) (fun t => ((t.tile 0).qOf 0).last == Code.wrongState) &&
      leads (.mxdrain 0) (queued (atHead (cmd drainCmd)) {} {}) (fun t => ((t.tile 0).qOf 0).flights.map (·.due) == [21]) &&
      leads (.mxkat 0) (queued (atHead (cmd 4)) {} {}) (fun t => ((t.tile 0).qOf 0).flights.map (·.due) == [1029])) = true := by decide +kernel

theorem witness_ends :
    oldestOf (inFlight loadCmd) 1 = some 0 ∧ oldestOf (inFlight mulCmd) 2 = some 0 ∧ oldestOf (inFlight drainCmd) 3 = some 0 ∧
      oldestOf (inFlight 4) 4 = some 0 ∧ oldestOf (inFlight sendCmd) 0x21 = some 0 ∧ arrayFaulty up 0 = false ∧
      arrayFaulty { up with flt := [.array 0 3 1] } 0 = true ∧ (inFlight copyCmd).flights[0]?.isSome = true ∧
      (mvtranBreach tranCmd).value = false ∧ fld copyCmd 9 8 = 0 ∧ fld copyCmd 11 10 = 1 ∧ copyLen copyCmd = 64 := by decide +kernel

/-- 1.0 × 1.0 in the first accumulator; nothing in its neighbour. -/
theorem test_ends :
    (leads (.mxloadDone 0) ((queued (inFlight loadCmd) {} {}).updTile 0 fun x => { x with loadDue := some (blk, 133) }) (fun t =>
        (t.tile 0).shadow == some blk && ((t.tile 0).qOf 0).flights == []) &&
      leads (.mxmulDone 0) (queued (inFlight mulCmd) {} {}) (fun t =>
        SMap.get 0 (t.tile 0).acc 0 == 0x3F800000 && SMap.get 0 (t.tile 0).acc 1 == 0 && t.cyc == 100) &&
      leads (.mxdrainDone 0) (queued { flights := [{ entry := cmd drainCmd, start := 5, due := 21, act := List.replicate 32 7 }] } {} {}) (fun t =>
        (t.tile 0).store.readBytes 0x4000 4 == [7, 7, 7, 7]) &&
      leads (.mxkatDone 0) (queued (inFlight 4) {} {}) (fun t => (t.tile 0).kat == some 100) &&
      leads (.mxkatDone 0) { queued (inFlight 4) {} {} with flt := [.array 0 3 1] } (fun t =>
        ((t.tile 0).qOf 0).last == Code.mxKatFail && (rg t (.tile 0) rTileMxStatus).bit 0)) = true := by decide +kernel

theorem test_moves :
    (leads (.mvcopy 0) (queued {} (atHead (cmd copyCmd)) {}) (fun t => (queueAt t 0 1).flights.length == 1) &&
      leads (.mvcopyDone 0 0) (queued {} (inFlight copyCmd) {}) (fun t => (t.tile 0).slice == [(0x40, 0x38)]) &&
      leads (.mvtran 0) (queued {} (atHead (cmd tranCmd)) {}) (fun t => (queueAt t 0 1).flights.length == 1) &&
      leads (.mvtranDone 0 0) ((queued {} (inFlight tranCmd) {}).updTile 0 fun x => { x with store := [(1, 9), (0x20, 8)] }) (fun t =>
        (t.tile 0).store == [(1, 9), (0x20, 8), (0x1001, 8), (0x1020, 9)])) = true := by decide +kernel

theorem witness_signal : holderOf up ⟨0, 7⟩ = some (.tile 0 0 7) ∧ logOf up 0 = some 0 ∧ commitsFrozen up = false ∧
    addAbsorbed up (.tile 0 0 5) = false ∧ countersMoving up ⟨0, 5⟩ = false := by decide +kernel

/-- A completed command whose clause adds 3 to own counter 7 fires it two cycles later (R148, R177). -/
theorem test_signal :
    leads (.signalClause 0 0) (queued { flights := [{ entry := ⟨4, 0xFFF <<< 95 + 7 <<< 87 + 3 <<< 121, 0⟩, start := 0, due := 0, done := true }] } {} {})
      (fun t => t.adds == [⟨⟨0, 7⟩, 3, 2⟩] && (queueAt t 0 0).flights == []) = true := by decide +kernel

theorem test_send_refused :
    leads (.fsend 0) (queued {} {} (atHead (cmd sendCmd))) (fun t => (queueAt t 0 2).st == .halted) = true := by decide +kernel

/-! Counters reached, and waits ended. -/

/-- `up` with two adds to counter 5 of tile 0 due together, and waits whose end is known. -/
def waiting : State :=
  { up.setTile 0 {
      cnt := [(5, 2 ^ 64 - 3)]
      ctx := [(0, { st := .wait, wait := .counter ⟨0, 5⟩ 1 none (some 10) }), (1, { st := .wait, wait := .slot 0 (some 10) }),
        (2, { st := .wait, wait := .bank 0 (some 10) }), (3, { st := .wait, wait := .counter ⟨0x400, 0⟩ 1 (some 10) none })]
      qs := [(0, { st := .stalled, headMet := some 10 }), (1, { st := .stalled, wake := some 10 })] } with
    adds := [⟨⟨0, 5⟩, 1, 7⟩, ⟨⟨0, 5⟩, 2, 7⟩, ⟨⟨0, 5⟩, 9, 8⟩]
    grt := [(0, { st := .wait, wait := .counter ⟨0x200, 3⟩ 1 none (some 10) })] }

theorem test_counter_add : (leads (.counterAdd ⟨0, 5⟩) waiting (fun t =>
      holderValue t (.tile 0 0 5) == 2 ^ 64 - 1 && holderSat t (.tile 0 0 5) && t.adds.length == 1 && t.cyc == 7) &&
    leads (.counterAdd ⟨0, 6⟩) waiting (fun t => t == waiting)) = true := by decide +kernel

theorem test_wakes :
    (leads (.contextWake 0 (.ctx 0)) waiting (fun t => (ctxAt t 0 0).st == .ready && t.cyc == 22) &&
      leads (.contextWake 0 (.queue 0)) waiting (fun t => (queueAt t 0 0).st == .run && t.cyc == 10) &&
      leads (.saddleWake 0 (.ctx 3)) waiting (fun t => (ctxAt t 0 3).wait == .counter ⟨0x400, 0⟩ 1 (some 10) (some 10)) &&
      leads (.saddleWake 0 (.queue 1)) waiting (fun t => (queueAt t 0 1).headMet == some 22) &&
      leads (.queueSlotReady 0 1) waiting (fun t => (ctxAt t 0 1).st == .ready && t.cyc == 12) &&
      leads (.accBankReady 0 2) waiting (fun t => (ctxAt t 0 2).st == .ready && t.cyc == 12) &&
      leads (.grottoWake 0) waiting (fun t => (t.grotto 0).st == .ready && t.cyc == 22)) = true := by decide +kernel

/-! Commit groups and translation. -/

/-- A group with a store and an advance, at its commit point, and one past it. -/
def committing (ph : GPhase) : State :=
  up.setTile 0 { group := some { ctx := 0, lines := [⟨.ts, 64, [(64, 1), (127, 2)], none, false⟩], adds := [⟨⟨0, 9⟩, 4⟩], phase := ph } }

theorem witness_commit :
    (match commitChecks (committing (.committing 3 0)) 0 0 (((committing (.committing 3 0)).tile 0).group.getD { ctx := 9 }) with
      | .ok _ => true
      | .error _ => false) = true ∧ partOfTile (committing (.committing 3 0)) 0 = some 0 := by decide +kernel

theorem test_commit :
    (leads (.commitPoint 0) (committing (.committing 3 0)) (fun t =>
        (t.tile 0).store == [(64, 1), (127, 2)] && t.adds == [⟨⟨0, 9⟩, 4, 2⟩]) &&
      leads (.commitDone 0) (committing (.landed 3 20 .ok)) (fun t =>
        (t.tile 0).group == none && holderValue t (.tile 0 0 3) == 1 && t.cyc == 20)) = true := by decide +kernel

/-- `up` with a walk that finds no tables, an invalidation, and copies of a translation. -/
def walking : State :=
  { withRegs [(.kvp 0, rKvpXltinv, 2 ^ 61)] up with
    walks := [⟨0, 0x10000, .arrival, 0, true⟩]
    arrivals := [⟨0, 0x0, 65536, some 0, false, false⟩, ⟨0, 0x10000, 65536, some 0, false, false⟩] }

theorem test_walks :
    (leads (.walkDone 0) walking (fun t => t.walks == [] && rf t (.kvp 0) rKvpWalkcnt 31 0 == 1 && rf t (.kvp 0) rKvpWalkcnt 63 32 == 1) &&
      leads (.xltinvDone 0) walking (fun t => t.arrivals.length == 1 && (rg t (.kvp 0) rKvpXltinv).bit 61 == false)) = true := by decide +kernel

/-- A full-width access of port 0's PF0. -/
def pf0 : Acc := ⟨false, 0, .full⟩

theorem witness_xltinv : meets (.xltinv pf0 0 0) up (fun _ => (rg up (.kvp 0) rKvpXltinv).bit 61 == false) = true := by decide +kernel

theorem test_xltinv : leads (.xltinv pf0 0 0) { up with walks := [⟨0, 0x10000, .arrival, 0, true⟩] } (fun t =>
    (rg t (.kvp 0) rKvpXltinv).bit 61 && t.walks == [⟨0, 0x10000, .arrival, 0, false⟩]) = true := by decide +kernel

theorem test_tpin : leads (.tpinDone 0) (up.setTile 0 { tpin := some ⟨[4], false⟩ }) (fun t =>
    (t.tile 0).tpin == some ⟨[], true⟩ && t.adds == [⟨⟨0, 4⟩, 1, 2⟩]) = true := by decide +kernel

/-! Traverses and steps. -/

/-- A partition of one tile cluster in a state of its traverse, with a traverse of two steps. -/
def twoSteps : Traverse :=
  { loop := false, clusterMask := 1, width := 128, refmode := 1, dispatch := 0, lenBucket := 0, loopStep := 0, images := []
    steps := [⟨64, false, [⟨0, 1, [8]⟩], [], [⟨5, 7, 0, true, 0, 10⟩, ⟨5, 7, 0, false, 0, 10⟩], ⟨[], 0, []⟩⟩,
      ⟨100, true, [], [], [], ⟨[], 0, []⟩⟩] }
/-- The partition's PART_TRVSTAT STATE, current step and own state. -/
def trvIn (st step : Nat) (x : Part) (s : State) : State :=
  (withRegs [(.part 0, rPartTrvstat, st * 2 ^ 32), (.part 0, rPartTrvstep, step)] s).setPart 0 x

theorem witness_traverse :
    (meets (.loadTrv pf0 0 0) up (fun _ => trvState up 0 == trvEMPTY && (valueOf pf0 1).field 3 0 == 1) &&
      meets (.runTrv pf0 0 0) (trvIn 2 0 { trv := some twoSteps } up) (fun _ => !windowImage (trvIn 2 0 { trv := some twoSteps } up) 0) &&
      meets (.runTrv ⟨false, 1, .low⟩ 0 0) (withRegs [(.part 0, rPartRunepoch, 2 ^ 63 + 2)] (trvIn 2 0 { trv := some twoSteps } up)) (fun _ => true) &&
      meets (.stopTrv pf0 0 0) (trvIn 3 0 {} up) (fun _ => true) && meets (.unloadTrv pf0 0 0) (trvIn 5 0 {} up) (fun _ => true) &&
      meets (.partRunEpoch pf0 0 0) (withRegs [(.part 0, rPartRunepoch, 2 ^ 63 + 2 ^ 62)] up) (fun t => !(rg t (.part 0) rPartRunepoch).bit 63) &&
      partQuiet up 0) = true := by decide +kernel

theorem test_traverse :
    (leads (.loadTrv pf0 0 0) up (fun t => trvState t 0 == trvLOADING) &&
      leads (.runTrv pf0 0 0) (trvIn 2 0 { trv := some twoSteps } up) (fun t => trvState t 0 == trvRUNNING && (t.part 0).runAt == some 8192) &&
      leads (.runTrv pf0 0 0) (withRegs [(.part 0, rPartRunepoch, 2 ^ 63 + 2)] (trvIn 2 0 { trv := some twoSteps } up)) (fun t =>
        trvState t 0 == trvLOADED && (t.part 0).runAt == none && (rg t (.part 0) rPartRunepoch).bit 62) &&
      leads (.stopTrv pf0 0 0) (trvIn 3 0 {} up) (fun t => trvState t 0 == trvSTOPPING) &&
      leads (.unloadTrv pf0 0 0) (trvIn 5 0 {} up) (fun t => trvState t 0 == trvEMPTY) &&
      leads (.partRunEpoch pf0 0 0) (withRegs [(.part 0, rPartRunepoch, 2 ^ 63 + 2 ^ 62)] up) (fun t => !(rg t (.part 0) rPartRunepoch).bit 62) &&
      leads (.stopDone 0) (trvIn 4 0 {} up) (fun t => trvState t 0 == trvLOADED)) = true := by decide +kernel

/-- The little-endian fields of a record: offset, width, value. -/
def fields (len : Nat) (l : List (Nat × Nat × Nat)) : List Byte :=
  l.foldl (fun bs x => bs.take x.1 ++ bytesOf x.2.1 x.2.2 ++ bs.drop (x.1 + x.2.1)) (List.replicate len 0)
/-- A spur image of one word (Table SPR-5), with its CRC. -/
def image : List Byte := fields 0x24 [(0, 4, 0x49524C41), (4, 2, 1), (6, 2, 1), (8, 4, 4), (0x1C, 4, 3916064214)]
/-- A traverse of one step over cluster 0 with that image on its sixteen tiles (Tables SPR-6 to SPR-8). -/
def trvBytes : List Byte :=
  fields 0xC0 [(0, 4, 0x56525441), (4, 2, 1), (8, 4, 1), (0xC, 1, 128), (0xD, 1, 1), (0x14, 4, 1), (0x1C, 4, 1), (0x20, 8, 0x40),
    (0x28, 8, 0x60), (0x30, 8, 0xE4), (0x38, 4, 2085510292), (0x40, 8, 0xC0), (0x48, 4, 0x24), (0x4C, 1, 1), (0x52, 2, 16),
    (0x60, 4, 64), (0x90, 8, 0xA0)] ++ image
/-- `up` with 512 MiB of stack 0 in the partition's range, tables that map it one to one (Table KV-2), and bytes at 0x30000. -/
def paged (bs : List Byte) : State :=
  let s := withRegs [(.part 0, rPartTrvbase, 0x30000)]
    (withEff [(.memc 0, rMemcRanger 0, 2 ^ 63 + 8 * 2 ^ 32), (.kvp 0, rKvpXltroot, 2 ^ 63 + 0x2000)] (trvIn 1 0 {} up))
  { s with mem := Mem.writeBytes (Mem.writeNat (Mem.writeNat [] 0x2000 8 0x20003) 0x20000 8 1) 0x30000 bs }

theorem witness_load :
    (let r := readVa 0 64 (trvBase (paged trvBytes) 0) 64 (paged trvBytes)
     r.1.length == 64 && r.2.1 == none && headerBad r.1 == none &&
      fillsPending (paged []) 0 == false && headerBad (List.replicate 64 0) == some (Code.traverseInvalid, 0)) = true := by decide +kernel

theorem test_load :
    (traverseBad trvBytes == none && unfitBad (paged trvBytes) 0 trvBytes == none &&
      leads (.loadDone 0) (paged trvBytes) (fun t => trvState t 0 == trvLOADED && (t.part 0).trv == some (traverseOf trvBytes) &&
        (t.tile 15).img == some ⟨0, 4, 0⟩) &&
      leads (.loadDone 0) (paged []) (fun t => trvState t 0 == trvFAILED && rf t (.part 0) rPartTrvstat 63 48 == 0x0111)) = true := by decide +kernel

/-- `up` at a mark on cycle 8192, partition 0 with `twoSteps`, tile 0 with an image. -/
def stepping (st step : Nat) (x : Part) : State :=
  { trvIn st step { x with trv := some twoSteps } (up.setTile 0 { img := some img }) with markCyc := 8192, cyc := 8200 }

theorem witness_steps :
    nextStep ((stepping 3 0 {}).part 0) 0 ≠ none ∧ nextStep ((stepping 3 1 {}).part 0) 1 = none ∧
      stepCycleAt ((stepping 3 0 { stepStart := 100 }).part 0) 64 = some 164 ∧ twoSteps.steps.length = 2 ∧
      holderOf (stepping 3 0 {}) (planCounter (stepping 3 0 {}) ⟨5, 7, 0, true, 0, 10⟩).2 = some (.tile 0 0 5) := by decide +kernel

theorem test_steps :
    (leads (.stepStart 0) (stepping 3 1 { runAt := some 8192 }) (fun t => curStep t 0 == 0 && ((t.tile 0).ctxOf 0).st == .ready &&
        ((t.tile 0).ctxOf 0).pc == 8 && (t.part 0).stepStart == 8192) &&
      leads (.stepStart 0) (stepping 3 0 { started := true, budgetEnd := true, stepStart := 100 }) (fun t =>
        curStep t 0 == 1 && (t.part 0).stepStart == 8192) &&
      leads (.stepEnd 0) (stepping 3 1 { started := true, stepStart := 8192 }) (fun t =>
        (t.part 0).budgetEnd && t.cyc == 8292 && rf t (.part 0) rPartTrvstep 63 32 == 1) &&
      leads (.traverseEnd 0) (stepping 3 1 { started := true, budgetEnd := true }) (fun t => trvState t 0 == trvLOADED) &&
      leads (.deadlineCheck 0 0) (stepping 3 0 { started := true, stepStart := 8192 }) (fun t =>
        (t.part 0).broken == [6] && t.cyc == 8202 && rf t (.part 0) rPartDbrkcnt 31 0 == 1) &&
      leads (.deadlineCheck 0 1) (stepping 3 0 { started := true, issued := [⟨0, 0, 5, 7, 10⟩] }) (fun t => (t.part 0).broken == [])) = true := by
  decide +kernel

theorem witness_epoch : up.bup.vglow = true ∧ up.therm.stopped = false ∧ up.time.newE0 = none := by decide +kernel

/-! Tiles. -/

theorem witness_tile :
    (meets (.diag pf0 16 0) up (fun _ => logOf up 16 == none) &&
      meets (.ctxRestart pf0 0 (2 ^ 15)) (up.setTile 0 { ctx := [(7, { st := .halted })] }) (fun _ => true) &&
      meets (.flush pf0 0 7) up (fun _ => logOf up 0 == some 0) && 
      unchecked (withRegs [(.tile 0, rTileMxCtrl, 0)] up) 0) = true := by decide +kernel

theorem test_tile :
    (leads (.diag pf0 16 0) up (fun t => (t.tile 16).diagFrom == some 0 && rf t (.tile 16) rTileId 21 19 == 3) &&
      leads (.diagnosisDone 16 (.oneBadRow 128)) ((withRegs [(.tile 16, rTileMxCap, 0xFF06)] up).setTile 16 { diagFrom := some 0 }) (fun t =>
        t.cyc == 16384 && (t.tile 16).poison.length == 1024 && rf t (.tile 16) rTileMxCap 15 8 == 128) &&
      leads (.katOverdue 0) (up.setTile 0 { katFrom := some 0 }) (fun t => (rg t (.tile 0) rTileMxStatus).bit 2 && t.cyc == 3000000) &&
      leads (.ctxRestart pf0 0 (2 ^ 15)) (up.setTile 0 { ctx := [(7, { st := .halted, code := 5 })] }) (fun t =>
        ((t.tile 0).ctxOf 7).st == .idle && ((t.tile 0).ctxOf 7).code == 0) &&
      leads (.flush pf0 0 1) (queued (atHead (cmd loadCmd)) {} {}) (fun t => (queueAt t 0 0).held == []) &&
      leads (.meshResend 0 ⟨none, false, 2⟩) up (fun t => t.glow.pend.has 0 && logOf t 0 == some 0) &&
      leads (.meshResend 0 ⟨none, false, 2⟩) (up.setTile 0 { meshBad := [(2, 0)] }) (fun t => t.bup.retiredInService == [0])) = true := by decide +kernel

/-! Memory upkeep. -/

/-- `up` with a correctable error in the first row of slice 0 and a scrub pass over that row. -/
def scrubbing : State :=
  { withRegs [(.tile 0, rTileSlScrubstat, 2 ^ 62), (.tile 0, rTileSlScrub, 0), (.memc 0, rMemcScrubstat, 2 ^ 62)] up with
    ecc := [((MemId.slice 0).key, { pats := [(64, ⟨1, 0⟩)] })] }

theorem witness_scrub :
    (meets (.slScrubStart pf0 0 (2 ^ 46 * 262143)) up (fun t => !slPass up 0 && !pllOff up 0 && rf t (.tile 0) rTileSlScrub 63 46 == 262143) &&
      meets (.slScrubStop pf0 0 0) up (fun t => t == up) && meets (.slScrubStop pf0 0 0) scrubbing (fun t => t == scrubbing) &&
      meets (.memcScrubStart pf0 7 0) up (fun _ => !memcPass up 7) && meets (.memcScrubStop pf0 0 0) scrubbing (fun t => t == scrubbing) &&
      (scrubBytes (.slice 0) 0 1024 {} scrubbing).1.first == 0) = true := by decide +kernel

theorem test_scrub :
    (leads (.slScrubStart pf0 0 (2 ^ 46 * 262143)) up (fun t => (t.tile 0).scrub.next == 262143 * 1024 && rf t (.tile 0) rTileSlScrubstat 63 62 == 1) &&
      leads (.slScrubStop pf0 0 0) scrubbing (fun t => rf t (.tile 0) rTileSlScrubstat 63 62 == 0) &&
      leads (.memcScrubStart pf0 0 (2 ^ 40)) up (fun t => (t.stack 0).scrub.next == 4096) &&
      leads (.memcScrubStop pf0 0 0) scrubbing (fun t => rf t (.memc 0) rMemcScrubstat 63 62 == 0) &&
      leads (.sliceRefreshSlot 0) scrubbing (fun t => (t.tile 0).scrub.next == 1024) &&
      leads (.scrubPassDone (.slice 0)) (scrubbing.setTile 0 { scrub := { next := 1024 } }) (fun t => rf t (.tile 0) rTileSlScrubstat 63 62 == 0) &&
      leads (.scrubPassDone (.stack 0)) scrubbing (fun t => rf t (.memc 0) rMemcScrubstat 63 62 == 0) &&
      leads (.scrubPeriod (.slice 0)) (withRegs [(.tile 0, rTileSlScrubstat, 2 ^ 63), (.tile 0, rTileSlScrub, 1 * 2 ^ 8)] up) (fun t =>
        t.cyc == 5400000000000 && rf t (.tile 0) rTileSlScrubstat 63 62 == 1) &&
      leads (.scrubPeriod (.stack 0)) (withRegs [(.memc 0, rMemcScrubstat, 2 ^ 63), (.memc 0, rMemcScrub, 1 * 2 ^ 8)] up) (fun t =>
        rf t (.memc 0) rMemcScrubstat 63 62 == 1)) = true := by decide +kernel

theorem witness_upkeep :
    (meets (.slRowret pf0 0 (2 ^ 28 + 2 ^ 16 * 4095)) up (fun t => rowBank (rg t (.tile 0) rTileSlRowret) < 64) &&
      meets (.bankret pf0 7 (31 * 2 ^ 24 + 31 * 2 ^ 16)) up (fun t => (rg t (.memc 7) rMemcBankret).field 21 16 < stackBanks 7 && spareFree up 7 31) &&
      meets (.tileInjArm pf0 0 0) up (fun _ => !tileInUse up 0) && meets (.tileInjRawrd pf0 0 (2 ^ 61)) up (fun _ => true) &&
      meets (.memcInjArm pf0 0 0) up (fun _ => !stackInUse up 0 0) && meets (.memcInjRawrd pf0 0 0) up (fun _ => true) &&
      meets (.marginStart pf0 0 12) up (fun t => rf t (.memc 0) rMemcMargctrl 3 2 == 3 && !stackRunning up 0) &&
      meets (.slclr pf0 0 0) up (fun _ => true) && meets (.tsclr pf0 0 0) up (fun _ => true) &&
      meets (.memcDripClr pf0 0 31 0) up (fun _ => true) && meets (.grtCdripClr pf0 511 0) up (fun _ => true) &&
      meets (.dripcfgWrite pf0 (.tile 0) 255) up (fun t => rf t (.tile 0) rTileDripcfg 7 0 == 255)) = true := by decide +kernel

theorem test_upkeep :
    (leads (.slRowret pf0 0 (2 ^ 16 * 5)) up (fun t => (t.tile 0).rowret == some 5 && rf t (.tile 0) rTileSlRowret 59 58 == 1) &&
      leads (.slRowret pf0 0 0) (up.setTile 0 { spareUsed := [(0, 32)] }) (fun t => rf t (.tile 0) rTileSlRowret 15 0 == Code.spareExhausted.toNat) &&
      leads (.slRowretDone 0) (up.setTile 0 { rowret := some 5, spareUsed := [(0, 1)] }) (fun t => (t.tile 0).rowOnSpare == [(5, 0)]) &&
      leads (.bankret pf0 0 (2 ^ 24 + 2 ^ 16)) up (fun t => (t.stack 0).bankret == some (1, 1) && rf t (.memc 0) rMemcBankret 59 58 == 1) &&
      leads (.bankretDone 0) (up.setStack 0 { bankret := some (1, 1) }) (fun t => (t.stack 0).retired == [(1, 1)]) &&
      leads (.tileInjArm pf0 0 64) up (fun t => (rg t (.tile 0) rTileInjaddr).bit 63) &&
      leads (.memcInjArm pf0 0 64) up (fun t => (rg t (.memc 0) rMemcInjaddr).bit 63) &&
      leads (.marginStart pf0 0 12) up (fun t => rf t (.memc 0) rMemcMargctrl 1 1 == 1 && rf t (.memc 0) rMemcState 7 4 == 4) &&
      leads (.dripLeak (.slice 0)) (withRegs [(.tile 0, rTileDrip, 3 * 2 ^ 40)] up) (fun t => rf t (.tile 0) rTileDrip 47 40 == 2) &&
      leads (.slclr pf0 0 0) (withRegs [(.tile 0, rTileDrip, 3 * 2 ^ 40)] up) (fun t => rg t (.tile 0) rTileDrip == 0) &&
      leads (.dripcfgWrite pf0 (.tile 0) 2) (withRegs [(.tile 0, rTileDrip, 3 * 2 ^ 40)] up) (fun t => rf t (.tile 0) rTileDrip 47 40 == 2)) = true := by
  decide +kernel

/-- A channel within the limits but for its timing (R238): LOW. -/
theorem test_margins :
    leads (.marginDone 0 (List.replicate 31 ⟨12, 12, 6, 6⟩ ++ [⟨12, 12, 5, 6⟩])) (withRegs [(.memc 0, rMemcMargctrl, 2 + 12)] up) (fun t =>
      (rg t (.memc 0) (rMemcMarginc 31)).bit 62 && !(rg t (.memc 0) (rMemcMarginc 30)).bit 62 &&
        rf t (.memc 0) (rMemcMarginc 31) 15 8 == 5 && rf t (.memc 0) rMemcState 7 4 == 3) = true := by decide +kernel

/-- The example of spec/06_memory.md: 0x0C_1234_5000 lies in P1, on channel 21, in bank 26. -/
theorem test_address : stackOf 0xC12345000 = some (1, 0xC12345000) ∧ channelOf 1 0xC12345000 = 21 ∧ bankOf 1 0xC12345000 = 26 := by decide +kernel

/-- A request of partition 0 in its range, and one outside it. -/
theorem witness_requests :
    rangeAt (paged []) 0 0x1FFFFFC0 = some (0, false) ∧ rangeAt (paged []) 0 0x20000000 = none ∧
      stackOf 0x2FFFFFFFC0 = some (3, 0x2FFFFFFFC0) ∧ stackOf 0x4000000000 = some (4, 0x4000000000) ∧
      (allAccesses ((paged []).setStack 0 { accesses := [⟨⟨0, 0, false, none⟩, true, some 320⟩] }))[0]?.isSome = true ∧
      (regNow (withEff [(.memc 0, rMemcRegpc 0 0, 0xFF_01FF_01FF)] (paged [])) 0 0 0).c = 391680 := by
  decide +kernel

theorem test_requests :
    (leads (.stackRequest ⟨0, 0x20000000, false, none⟩) (paged []) (fun t => t.sent == [.stackReply ⟨0, 0x20000000, false, none⟩ (some .outOfRange)]) &&
      leads (.stackAccessDone 0) ((paged []).setStack 0 { accesses := [⟨⟨0, 0, false, none⟩, true, some 320⟩] }) (fun t =>
        t.cyc == 320 && (t.stack 0).accesses == []) &&
      leads (.stackRefresh 0 31 47) up (fun t => t == up) &&
      leads (.fillDone (.range 0 0)) { paged [7] with bup := { (paged [7]).bup with fills := [.range 0 0], handed := [(0, 0), (0, 9)] } } (fun t =>
        t.mem == [] && t.bup.handed == [(0, 9)])) = true := by decide +kernel

theorem test_fill_cluster : leads (.fillDone (.cluster 0)) { bytes with bup := { bytes.bup with fills := [.cluster 0] } } (fun t =>
    t.bup.fills == [] && (t.tile 0).store == [] && (t.tile 0).slice == []) = true := by decide +kernel

/-! Grotto cores. -/

/-- Core 0 as it stands, in stack G0 in SERVICE mode or not. -/
def core (g : Grotto) (window : Bool) : State := (withRegs [(.grt 0, rGrtMode, if window then 1 else 0)] up).setGrotto 0 g

theorem witness_grotto :
    launchable (core { launchDue := some 20, img := some img, cnt := [(0, 1)] } false) 0 = true ∧ serviceMode (core {} false) 0 = true ∧
      serviceMode (core {} true) 0 = false ∧ maintenanceWait (core {} false) 4 0 = none ∧
      maintenanceWait (withRegs [(.memc 4, rMemcScrubstat, 2 ^ 62)] (core { st := .ready } false)) 4 0 = some 0 ∧ activeCores (core {} false) 0 = 0 ∧
      addAbsorbed up (.grotto 0 0) = false ∧ stackOwnerRunning up 0 = false := by decide +kernel

theorem witness_grotto_writes :
    (meets (.launch pf0 0 0) (core {} true) (fun _ => true) && meets (.grtRestart pf0 0 0) (core { st := .halted } false) (fun _ => true) &&
      meets (.grtMode pf0 0 1) (core {} false) (fun t => (rg t (.grt 0) rGrtMode).bit 0) &&
      meets (.peakclr pf0 0 0) (core {} false) (fun _ => true)) = true := by decide +kernel

theorem test_grotto :
    (leads (.grottoLaunch 0) (core { launchDue := some 20, img := some img, cnt := [(0, 1)] } false) (fun t =>
        (t.grotto 0).st == .ready && SMap.get 0 (t.grotto 0).g 1 == 1 && SMap.get 0 (t.grotto 0).g 2 == 0 && t.cyc == 20) &&
      leads (.grottoLaunch 0) (core { launchDue := some 20, cnt := [(0, 1)] } false) (fun t => (t.grotto 0).code == Code.wrongState && (t.grotto 0).launches == 1) &&
      leads (.launch pf0 0 0) (core {} true) (fun t => holderValue t (.grotto 0 0) == 1 && (t.grotto 0).launchDue == some 12) &&
      leads (.grtRestart pf0 0 0) (core { st := .halted, code := 5 } false) (fun t => (t.grotto 0).st == .idle && (t.grotto 0).code == 0) &&
      leads (.grtMode pf0 0 1) (core {} false) (fun t => (rg t (.grt 0) rGrtMode).bit 0) &&
      leads (.peakclr pf0 0 0) (core { st := .ready } false) (fun t => rf t (.grt 0) rGrtState 23 16 == 1) &&
      leads (.grottoRefreshDue 0) (core { st := .ready, owed := 8 } false) (fun t => (t.grotto 0).owed == 9 && (t.grotto 0).st == .ready) &&
      leads (.grottoRefreshDue 0) (core { st := .ready, owed := 9 } false) (fun t => (t.grotto 0).st == .paused) &&
      leads (.grottoPause 0) (core { st := .ready, owed := 9 } false) (fun t => (t.grotto 0).st == .paused && (t.grotto 0).running == 1) &&
      leads (.grottoRefreshOpDone 0) (core { st := .paused, owed := 1, running := 1 } false) (fun t => (t.grotto 0).st == .ready && (t.grotto 0).owed == 0) &&
      leads (.ordinaryAccessService 0) (core { st := .ready, queue := [⟨false, false, 0⟩] } false) (fun t =>
        (t.grotto 0).queue == [] && rf t (.grt 0) rGrtIntrude 31 0 == 1 && rf t (.grt 0) rGrtIntrude 63 32 == 17 && (t.part 0).broken == [10]) &&
      leads (.scrubWaitExpiry 0) (withRegs [(.memc 4, rMemcScrubstat, 2 ^ 62)] (core { st := .ready } false)) (fun t => (t.grotto 0).queue.length == 1)) = true := by
  decide +kernel

/-- The example of spec/07_grotto.md: BK offset 0x12_3480 of core 37 of G1 is 0x48_092F_A480 in the interleaved window. -/
theorem test_window : bkAddr 165 0x123480 = 0x48092FA480 := by decide +kernel

/-! The fabric. -/

/-- `up` with link 0 in state `st` (R289), enabled, its device number set. -/
def linked (st : Nat) (l : Link) : State :=
  (withRegs [(.fab, rFabDevid, 2 ^ 14), (.fab, rFabLinkctrll 0, 1), (.fab, rFabLinkstatl 0, st * 2 ^ 38 + 4 * 2 ^ 41 + 15)] up).setLink 0 l

theorem witness_links :
    (linkState (linked 4 {}) 0 == 4 && linkState (linked 5 {}) 0 == 5 && linkState (linked 1 {}) 0 == 1 && laneMin up 0 == 1 &&
      meets (.linkEn pf0 0 1) up (fun t => (rg t .fab (rFabLinkctrll 0)).bit 0) && meets (.linkEn pf0 0 0) (linked 4 {}) (fun _ => true) &&
      meets (.retrain pf0 0 1) (linked 4 {}) (fun _ => !anyRunning (linked 4 {})) && meets (.relock pf0 0 1) (linked 4 {}) (fun _ => true) &&
      adoptLanes 0xF 4 == 0xF && adoptLanes 0xB 4 == 3 && adoptLanes 4 4 == 4 && laneWidth 3 == 2) = true := by decide +kernel

/-- The sixteen echoes of a training. -/
def sixteen : List EchoTimes := List.replicate 16 ⟨10676, 10, 20⟩

theorem test_links :
    (leads (.linkEn pf0 0 1) up (fun t => linkState t 0 == 1) && leads (.linkEn pf0 0 0) (linked 4 {}) (fun t => linkState t 0 == 0) &&
      leads (.retrain pf0 0 1) (linked 4 {}) (fun t => linkState t 0 == 1) && leads (.relock pf0 0 1) (linked 4 {}) (fun _ => true) &&
      leads (.linkUp 0 ⟨0xF, 1, 7, 2, sixteen⟩) (linked 1 {}) (fun t => linkState t 0 == 4 && rf t .fab (rFabLinkstatl 0) 43 41 == 2 &&
        rf t .fab (rFabLinkstatl 0) 3 0 == 3 && rf t .fab (rFabLinkstatl 0) 63 50 == 1 && wlock t 0 == 500) &&
      leads (.linkUp 0 ⟨8, 1, 7, 4, sixteen⟩) (linked 1 {}) (fun t => linkState t 0 == 4 && rf t .fab (rFabLinkstatl 0) 3 0 == 8) &&
      leads (.frameReceive 0 (.good 2 ⟨0, 0, 0, 4, false⟩)) (linked 4 { badRow := 3 }) (fun t => rf t .fab (rFabLinkerrl 0) 31 0 == 2 && (t.link 0).badRow == 0) &&
      leads (.frameReceive 0 .crcError) (linked 4 { badRow := 15 }) (fun t => linkState t 0 == 0) &&
      leads (.replay 0) (linked 4 {}) (fun t => rf t .fab (rFabLinkerrl 0) 63 48 == 1) &&
      leads (.laneFail 0 4) (linked 4 {}) (fun t => linkState t 0 == 5 && (t.link 0).lanesWanted == 0xB) &&
      leads (.linkRealigned 0 2) (linked 5 { lanesWanted := 0xB }) (fun t => linkState t 0 == 4 && rf t .fab (rFabLinkstatl 0) 3 0 == 3) &&
      leads (.echo 0 ⟨some ⟨46, 10, 20⟩, 0, true, 0⟩) (linked 4 {}) (fun t => (t.link 0).echoes == [36]) &&
      leads (.echo 0 ⟨none, 0, true, 0⟩) (linked 4 {}) (fun t => (t.link 0).missed == 1)) = true := by decide +kernel

/-- A header for tile store line 0 of logical tile 0 from device 1, one line of data, a signal of 3 to counter 7 of tile 0. -/
def hdr (dst : Nat) : FabHeader :=
  { srcDev := 1, srcPart := 0, srcTile := 0, srcUnit := 0, dstDev := BitVec.ofNat 14 dst, dpart := 0, dsp := 0, dst := 0, len := some 0
    managed := true, vc1 := false, signal := some (7, 3), stampStep := 0, start := 0, latency := 0, cycles := 8 }
/-- `up` with an admission window for device 1. -/
def admitting : State := withEff [(.fab, rFabAdmitpw 0 0, 2 ^ 63 + 2 ^ 62 + 0x3FFF * 2 ^ 28)] (withRegs [(.fab, rFabDevid, 2 ^ 14)] up)
/-- A scheduled delivery on link 0. -/
def due (data : List Byte) : Delivery := ⟨0, 0, hdr 0, data, 20, 30, true⟩

theorem witness_arrivals :
    arrivalBad admitting (some 0) (hdr 0) = none ∧ arrivalBad up (arrivalPart up (hdr 0)) (hdr 0) = some .fabRejected ∧
      devId admitting = 0 ∧ nextDelivery { up with deliveries := [due []] } 0 = some (0, due []) ∧ partRunning admitting 0 = false := by decide +kernel

theorem test_arrivals :
    (leads (.fabricArrival 0 (hdr 0) (7 :: List.replicate 63 0)) admitting (fun t => (t.tile 0).store == [(0, 7)] && t.adds == [⟨⟨0, 7⟩, 3, 0⟩]) &&
      leads (.fabricArrival 0 (hdr 0) (7 :: List.replicate 63 0)) up (fun t => rf t .fab rFabDropcnt 63 32 == 1 && t.tiles == []) &&
      leads (.scheduledDelivery 0) { trvIn 3 0 { started := true } up with deliveries := [due [5]] } (fun t => t.cyc == 30 && t.deliveries == [] && (t.tile 0).store == [(0, 5)]) &&
      leads (.failureNotice ⟨0, 0, false, 1, 0, 3, 2, .fabRejected⟩) up (fun t => rf t .fab rFabFaillast 15 0 == Code.fabRejected.toNat &&
        rf t .fab rFabFaillast 63 50 == 1)) = true := by decide +kernel

/-! Device time. -/

/-- `up` with a role (0 FREE, 1 ROOT, 2 MEMBER) and a source. -/
def timed (ctrl : Nat) (x : DevTime) : State := { withRegs [(.time, rTimeCtrl, ctrl)] up with time := x }

theorem witness_time :
    (meets (.timeSet pf0 5) (timed 0 {}) (fun _ => !noStep (timed 0 {}) && timeRole (timed 0 {}) == 0) &&
      timeRole (timed 1 {}) == 1 && timeRole (timed 2 {}) == 2 && referenceLost (timed 1 { missedRef := 3000 }) &&
      !referenceLost (timed 1 {}) && timeState (timed 1 {}) != 3) = true := by decide +kernel

theorem test_time :
    (leads (.timeSet pf0 5) (timed 0 {}) (fun t => t.time.t == 5 * 196608) &&
      leads (.timeNowRead false) (timed 0 { t := 5 * 196608 + 3 * 7 }) (fun t =>
        t.sent == [.regReply false 5] && rg t .time rTimeNowfrac == 7) &&
      leads .ppsInEdge (timed 0 { t := 5 * 196608 }) (fun t => rg t .time rTimePpsin == 5 && rg t .time rTimePpsinfrac == 0x10000) &&
      leads (.ptmRequest (some ⟨32⟩)) (timed 1 {}) (fun t => t.time.good == 1 && t.time.missedRef == 0) &&
      leads (.ptmRequest none) (timed 1 {}) (fun t => t.time.missedRef == 1)) = true := by decide +kernel

/-! The host attachment. -/

/-- The steward's port, by the other's PF0. -/
def pf1 : Acc := ⟨true, 0, .full⟩
/-- Port 0, VF 1. -/
def vf1 : Acc := ⟨false, 1, .full⟩

/-- `up` with queue 0 of partition 0 in effect: counters 0 to 3 of group 0, rings of two entries; the completion ring at
host address 0x1000; `n` completions wait. -/
def queueing (n : Nat) : State :=
  (withEff [(.part 0, rPartQcfgq 0, 2 ^ 63 + 2 ^ 56 + 2 ^ 52 + 1 * 2 ^ 24 + 2 * 2 ^ 12 + 3), (.part 0, rPartQcplq 0, 0x1000)] up).setPart 0
    { hq := [(0, { waiting := List.replicate n [7, 7] })] }

theorem witness_host :
    (meets (.hvcAdd pf0 0 5 3) up (fun _ => !subFull up 0 5 3 && !addAbsorbed up (.group 0 5)) &&
      meets (.hvcAdd pf0 0 0 3) (queueing 0) (fun _ => subFull (queueing 0) 0 0 3 || subFull (queueing 0) 0 1 3 ||
        subFull (queueing 0) 0 2 3 || subFull (queueing 0) 0 3 3) &&
      portUp (queueing 1) (partPort (queueing 1) 0) && 2 ^ (queueCfg (queueing 1) 0 0).field 55 52 == 2 &&
      meets (.hbeat pf0 1) up (fun _ => !fencing up) && meets (.claim pf1 0) { up with steward := { lapsed := true } } (fun _ => true) &&
      meets (.claim pf0 0) up (fun _ => !up.steward.lapsed) && fencing { up with steward := { claim := 1 } }) = true := by decide +kernel

theorem test_host :
    (leads (.hvcAdd pf0 0 5 3) up (fun t => holderValue t (.group 0 5) == 3) &&
      leads (.completionWrite 0 0) (queueing 1) (fun t => t.hostMem0 == [(0x1000, 7), (0x1001, 7)] && ((t.part 0).hqOf 0).c == 1) &&
      leads (.hbeat pf0 1) up (fun t => rf t (.hif false) rHifHbeat 31 0 == 1) &&
      leads .stewardLapsed up (fun t => t.steward.lapsed && t.cyc == 3000000000) &&
      leads (.claim pf1 0) { up with steward := { lapsed := true } } (fun t => t.steward.claim == 1) &&
      leads (.claim pf0 0) up (fun t => !t.steward.lapsed && t.steward.claim == 0) &&
      leads .fenceEnd { up with steward := { claim := 1 } } (fun t => t.steward.port && t.steward.claim == 3 && t.cyc == 375000000)) = true := by
  decide +kernel

theorem test_pcie :
    (leads (.pcieReset false (.flrVf 1)) (up.setPort false { up := true, vfs := 32, masked := [32, 64] }) (fun t => t.port0.masked == [64]) &&
      leads (.pcieReset false .flrPf0) up (fun t => t.port0 == { up := true }) && leads (.pcieReset false .hot) up (fun t => t.port0 == {}) &&
      leads (.pcieLinkUp true) (up.setPort true {}) (fun t => t.port1.up && t.port1.vfs == 32) &&
      leads (.pcieLinkUp true) State.reset (fun t => t == State.reset)) = true := by decide +kernel

/-- `paged` with a window of partition 0 over the first granule, its bytes `l`. -/
def windowed (l : Mem) : State := withRegs [(.bup, rBupState, 12 * 2 ^ 44 + 2 * 2 ^ 42)] { up with mem := l }

theorem witness_windows :
    barPlace (windowed [(64, 9)]) false 0 64 = some (0, 64) ∧ unservedVf (windowed []) false 0 = false ∧ unservedVf (windowed []) true 1 = true ∧ barPlace (windowed []) false 0 0x1000000000 = none ∧
      byteCheck (windowed [(64, 9)]) 0 64 = .clean ∧ pf0Place false 0x100FF8 = some (.bup, 0xFF8) ∧ regDesc .bup 0xFF8 = none ∧ inFwWindow .bup 0xFF8 = false ∧
      (hostCmd (windowed []) (.timeSet vf1 5)).bind (fun x => x.refused (windowed [])) = some .notOwner := by decide +kernel

theorem test_windows :
    (leads (.hostBarAccess ⟨false, 0, 64, .read 2⟩) (windowed [(64, 9)]) (fun t => t.sent == [.readReply false (some [9, 0])]) &&
      leads (.hostBarAccess ⟨false, 0, 0x1000000000, .read 2⟩) (windowed []) (fun t => t.sent == [.unsupported false]) &&
      leads (.hostBarAccess ⟨false, 0, 64, .write [5]⟩) (windowed []) (fun t => t.mem == [(64, 5)]) &&
      leads (.hostBarAccess ⟨false, 0, 0x1000000000, .write [5]⟩) (windowed []) (fun t => rf t (.hif false) rHifErrcnt 31 0 == 1 && t.mem == []) &&
      leads (.hostBarAccess ⟨true, 1, 64, .read 2⟩) (windowed [(64, 9)]) (fun t => t.sent == [.readReply true (some [0, 0])]) &&
      leads (.registerWrite ⟨false, 0, 0x30, 64⟩ 5) up (fun t => rf t (.hif false) rHifVecen 9 0 == 5) &&
      leads (.registerWrite ⟨false, 0, 0x20, 64⟩ 1) up (fun t => rf t (.hif false) rHifHbeat 31 0 == 1) &&
      leads (.registerWrite ⟨false, 0, 0x700000, 64⟩ 1) up (fun t => t == up) &&
      leads (.timeSet vf1 5) up (fun t => t.time.t == 0)) = true := by decide +kernel

/-! Commits. -/

/-- `up` with partition 1 staged: cluster 1 where `c` says so, port 0. -/
def staged (c : Bool) : State := withRegs [(.part 0, rPartComp, 2 ^ 63 + 1), (.part 0, rPartHvcg, 1),
  (.part 1, rPartComp, 2 ^ 63 + (if c then 2 else 0))] up
/-- Commits that wait. -/
def busy (l : List Nat) : State := { up with bup := { up.bup with commitBusy := l } }

theorem witness_commits :
    (meets (.deviceCommit pf0 0) (staged true) (fun t => deviceCheck t == none && bupPast t 11 && !(rg t (.hif false) rHifPcommit).bit 61) &&
      meets (.deviceCommit pf0 0) (staged false) (fun t => deviceCheck t == some (.illegalValue, 1)) &&
      meets (.pcommitDiscard pf0 0) (staged true) (fun _ => true) && meets (.partCommit pf0 0 0) up (fun t => partCheck t 0 == none) &&
      meets (.partDiscard pf0 0 0) up (fun _ => partValid up 0) &&
      meets (.gstCommit pf0 0) up (fun t => guestCheck t == none) && meets (.gstDiscard pf0 0) up (fun _ => true)) = true := by decide +kernel

theorem test_commits :
    (leads (.deviceCommit pf0 0) (staged false) (fun t => rf t (.hif false) rHifPcommit 57 56 == 2 && rf t (.hif false) rHifPcommit 52 48 == 1) &&
      leads (.gstDiscard pf0 0) (withRegs [(.gst, rGstWinw 0, 5)] up) (fun t => rg t .gst (rGstWinw 0) == 0) &&
      leads (.partCommit pf0 0 0) up (fun t => rf t (.part 0) rPartCommit 57 56 == 1) &&
      leads .deviceCommitDone (busy [0]) (fun t => t.bup.commitBusy == []) &&
      leads (.partCommitDone 0) (busy [2]) (fun t => t.bup.commitBusy == []) &&
      leads (.gstCommit pf0 0) up (fun t => rf t .gst rGstCommit 57 56 == 1)) = true := by decide +kernel

/-! Ridge modules. -/

/-- `up` with ridge module 0 in a state and both width codes given. -/
def ridged (st wp ws : Nat) (r : Ridge) : State :=
  (withRegs [(.d2d, rD2dModstatm 0, st + wp * 2 ^ 20 + ws * 2 ^ 18)] up).setRidge 0 r

theorem witness_ridge :
    modState (ridged 2 3 3 {}) 0 = modUP ∧ modState (ridged 3 3 2 {}) 0 = modHELD ∧ wpk (ridged 3 3 2 {}) 0 = 3 ∧ wsd (ridged 3 3 2 {}) 0 = 2 ∧
      widthCode (min (goodLanes []) (goodLanes [])) ≠ 0 ∧
      meets (.rstside pf0 0 1) (ridged 2 3 3 {}) (fun _ => true) = true ∧ meets (.rstside pf0 0 1) (ridged 0 0 0 {}) (fun t => modState t 0 == modDOWN) = true := by
  decide +kernel

theorem test_ridge :
    (leads (.ridgeLaneBad 0 ⟨true, 5, true⟩) (ridged 2 3 3 {}) (fun t => modState t 0 == 3 && (t.ridgeMod 0).badPS == [5] &&
        rf t .d2d (rD2dModstatm 0) 47 40 == 1) &&
      leads (.ridgeLaneBad 0 ⟨true, 5, true⟩) (ridged 0 0 0 {}) (fun t => modState t 0 == 0) &&
      leads (.ridgeRetrained 0) (ridged 3 3 3 {}) (fun t => (t.ridgeMod 0).retrained) &&
      leads (.ridgeHandshake 0) (ridged 3 3 3 {}) (fun t => (t.ridgeMod 0).agreed) &&
      leads (.ridgeHandshake 0) (ridged 3 3 2 {}) (fun t => (t.ridgeMod 0).mismatch && t.glow.pend.has (srcRidge 0)) &&
      leads (.ridgeHandshake 0) (ridged 3 3 2 { mismatch := true }) (fun t => wpk t 0 == 2 && wsd t 0 == 2 && (t.ridgeMod 0).agreed) &&
      leads (.rstside pf0 0 1) (ridged 2 3 3 {}) (fun t => modState t 0 == 3 && (t.ridgeMod 0).retest == [true]) &&
      leads (.ridgeRetestDone 0 true []) (ridged 3 3 3 { retest := [true] }) (fun t => (t.ridgeMod 0).retest == [])) = true := by decide +kernel

/-! The guest port. -/

/-- `up` with the guest's link active, a window of partition 0 over the first granule of stack 0, its counters 0x40000 to
0x400FF, and the full rate. -/
def guested : State :=
  withEff [(.gst, rGstWinw 0, 2 ^ 63 + 2 ^ 62 + 2 ^ 61 + 0x3FF * 2 ^ 32), (.gst, rGstCntrr 0, 2 ^ 63 + 2 ^ 62 + 2 ^ 61 + 0x400FF * 2 ^ 20 + 0x40000),
      (.gst, rGstPolicy, 15 * 2 ^ 16 + 1), (.memc 0, rMemcRanger 0, 2 ^ 63 + 2 ^ 32)]
    (withRegs [(.gst, rGstCtrl, 2 * 2 ^ 8 + 1)] up)

theorem witness_guest :
    guestAdmits guested 61 0 64 = some 0 ∧ guestAdmits guested 62 0 128 = some 0 ∧ guestAdmits guested 61 32 64 = none ∧
      guestCounter guested 62 0x40005 = true ∧ guestCounter guested 61 0x40105 = false ∧ holderOf guested ⟨0x400, 5⟩ = some (.group 0 5) ∧
      addAbsorbed guested (.group 0 5) = false ∧ rf guested .gst rGstCtrl 10 8 = 2 ∧ rfEff guested .gst rGstPolicy 23 16 = 15 ∧
      byteCheck guested 0 0 = .clean ∧
      meets (.greset pf0 2) guested (fun t => (rg t .gst rGstCtrl).bit 1) = true ∧
      meets (.greset pf0 0) guested (fun t => !(rg t .gst rGstCtrl).bit 0) = true ∧
      (rg (withRegs [(.gst, rGstCtrl, 1)] up) .gst rGstCtrl).bit 0 = true ∧ commonChecks pf0 dGstCtrl .steward 1 up = none := by decide +kernel

/-! Bring-up. -/

/-- After power-up: step `n` in status `st`. -/
def atStep (n st : Nat) : State := withRegs [(.bup, rBupState, n * 2 ^ 44 + st * 2 ^ 42)] up
/-- Nothing found. -/
def nothing : BupFindings := ⟨[], 0, [], [], [], []⟩

theorem witness_bringup :
    (railOrder[(0 : Nat)]? == some 5 && railState (withRegs [(.clk, rPwrRailr 5, 1)] { State.reset with bup := { vglow := true, testN := true } }) 5 == 1 &&
      meets (.bupGo pf0 (4 * 2 ^ 8)) (atStep 3 2) (fun t => rf t .bup rBupCtrl 11 8 == 4 && mayStart (atStep 3 2) 4 && bupStatus (atStep 3 2) != 1) &&
      meets (.bupSkip pf0 (8 * 2 ^ 8)) (atStep 7 2) (fun t => rf t .bup rBupCtrl 11 8 == 8 && mayStart (atStep 7 2) 8) &&
      meets (.bupSkip pf0 (11 * 2 ^ 8)) (atStep 11 1) (fun t => rf t .bup rBupCtrl 11 8 == 11) &&
      stepMayEnd (atStep 4 1) 3 && stepMayEnd (atStep 2 1) 100 && !stepMayEnd (withRegs [(.fab, rFabLinkctrll 0, 1), (.fab, rFabLinkstatl 0, 2 ^ 38)] (atStep 10 1)) 5 &&
      meets (.saveRecord pf0 (2 * 4096)) up (fun t => rf t .bup rBupTrrec 45 12 == 2) && bupPast up 6 && portUp up (stewardPort up)) = true := by decide +kernel

theorem test_bringup :
    (leads (.vglowUp true true) State.reset (fun t => t.steward.port && bupStep t == 1 && bupStatus t == 1) &&
      leads .testNRelease { State.reset with bup := { vglow := true } } (fun t => railState t 5 == 1 && t.sent == [.pmbus 5 true]) &&
      leads (.railInRegulation 5) (withRegs [(.clk, rPwrRailr 5, 1)] { State.reset with bup := { vglow := true, testN := true } }) (fun t =>
        railState t 5 == 2 && t.bup.railNext == 1) &&
      leads (.railSeqFail 5) (withRegs [(.clk, rPwrRailr 5, 1)] { State.reset with bup := { vglow := true, testN := true } }) (fun t =>
        railState t 5 == 4 && t.therm.seqFail) &&
      leads (.bupGo pf0 (4 * 2 ^ 8)) (atStep 3 2) (fun t => bupStep t == 4 && bupStatus t == 1) &&
      leads (.bupGo pf0 (6 * 2 ^ 8)) (atStep 3 2) (fun t => bupStep t == 3) &&
      leads (.bupSkip pf0 (8 * 2 ^ 8)) (atStep 7 2) (fun t => bupStep t == 8 && (rg t .bup rBupState).bit 41) &&
      leads (.bupStepDone 100 nothing) (atStep 2 1) (fun t => bupStep t == 3 && bupStatus t == 1 && t.cyc == 150000000) &&
      leads .vglowLoss up (fun t => !t.bup.vglow && t.regs == [])) = true := by decide +kernel

/-! Repair. -/

/-- Row 0 under repair: its tile 14 was lost. -/
def repairing (x : RowRepair) : State := { up with bup := { up.bup with shifting := [(0, x)] } }

theorem witness_repair :
    logOf up 14 = some 14 ∧ repairOf up 0 = none ∧ (rg up .bup (rBupRowmapr 0)).bit 0 = true ∧
      repairMayRun (repairing { tile := 14, lidx := 14, readable := true }) 0 = true ∧ shiftCount { tile := 14, lidx := 14, readable := true } = 1 ∧
      partOfCluster up 0 = some 0 := by decide +kernel

theorem test_repair :
    (leads (.rowShiftRepair 14 true) up (fun t => repairOf t 0 == some { tile := 14, lidx := 14, readable := true }) &&
      leads (.tileMigrateDone 0) (repairing { tile := 14, lidx := 14, readable := true }) (fun t => (repairOf t 0).map (·.moved) == some 1) &&
      leads (.refillDone 0) (repairing { tile := 14, lidx := 14, readable := true, moved := 1 }) (fun t => (repairOf t 0).map (·.refill) == some (some false)) &&
      leads (.repairComplete 0) ((repairing { tile := 14, lidx := 14, readable := true, moved := 1, refill := some false }).setTile 15 { store := [(0, 9)] })
        (fun t => repairOf t 0 == none && (t.tile 16).store == [(0, 9)] && physOf t 15 == some 16)) = true := by decide +kernel

/-! Resets. -/

theorem witness_resets :
    (meets (.tileReset pf0 3) up (fun t => scopeOf (rg t .rst rRstReq) == some (.tile 3) && mayReset up 0) &&
      meets (.clusterReset pf0 1) up (fun t => scopeOf (rg t .rst rRstReq) == some (.cluster 1)) &&
      meets (.deviceReset pf0 (0xD7 * 2 ^ 16)) up (fun t => scopeOf (rg t .rst rRstReq) == some .device) &&
      meets (.deviceReset pf0 0) up (fun t => rf t .rst rRstReq 23 16 == 0) &&
      meets (.partReset pf0 0 0) up (fun _ => !insideReset up (.part 0)) && drained up (.tile 3) && drained up .device) = true := by decide +kernel

theorem test_resets :
    (leads (.tileReset pf0 3) up (fun t => t.bup.resets == [.tile 3]) && leads (.clusterReset pf0 1) up (fun t => t.bup.resets == [.cluster 1]) &&
      leads (.deviceReset pf0 (0xD7 * 2 ^ 16)) up (fun t => t.bup.resets == [.device] && rf t .rst rRstCause 3 0 == 1) &&
      leads (.deviceReset pf0 0) up (fun t => t.bup.resets == []) && leads (.partReset pf0 0 0) up (fun t => t.bup.resets == [.part 0]) &&
      leads (.resetDone (.tile 3)) { up.setTile 3 { store := [(0, 9)], ctx := [(0, { st := .ready })] } with bup := { up.bup with resets := [.tile 3] } }
        (fun t => t.bup.resets == [] && (t.tile 3).store == [(0, 9)] && (t.tile 3).ctx == [])) = true := by decide +kernel

/-! Power, clocks and heat. -/

/-- `up` with supply monitor 3 below warning. -/
def dipped : State := { up with therm := { low := [3] } }

theorem test_supply :
    (leads (.supplyDroop 3 700) up (fun t => t.therm.low == [3] && (rg t .clk rClkState).bit 1) &&
      leads (.supplyDip 3) dipped (fun t => t.therm.warned == [3] && (rg t .clk rClkState).bit 0) &&
      leads (.supplyRecover 3 750 100) dipped (fun t => t.therm.low == []) &&
      leads (.supplyRecover 3 750 100) { up with therm := { low := [3, 4] } } (fun t => t.therm.low == [4]) &&
      leads (.supplySustained 3 700) { up with therm := { low := [3], warned := [3] } } (fun t => t.therm.sustained) &&
      leads (.supplyReset 3 700) up (fun t => t.bup.resets == [.device] && rf t .rst rRstCause 3 0 == 2) &&
      leads (.railWarning 194 1600 100) up (fun t => t.glow.pend.has (srcMonitor 194)) &&
      leads (.pmbusPoll [⟨0, 5, none, false⟩]) (withRegs [(.clk, rPwrRailr 0, 2)] up) (fun t => SMap.get 0 t.therm.pmbusMiss 0 == 1) &&
      leads (.avsbusCompletion 0) { up with therm := { undoDiv := some false } } (fun t => t.therm.undoDiv == some true)) = true := by decide +kernel

theorem witness_clocks :
    (meets (.pllOn pf0 0xFFFFFFFF) up (fun t => rf t .clk rClkPll 31 0 == 0xFFFFFFFF) && meets (.pllOn pf0 0) up (fun t => rf t .clk rClkPll 31 0 == 0)) = true := by
  decide +kernel

theorem test_clocks :
    (leads (.pllOn pf0 7) up (fun t => rf t .clk rClkPll 31 0 == 7 && rf t .clk rClkPll 63 32 == 3) &&
      leads (.pllOn pf0 0) up (fun t => rf t .clk rClkPll 31 0 == 3) &&
      leads (.pllLocked 2) (withRegs [(.clk, rClkPll, 4)] up) (fun t => rf t .clk rClkPll 63 32 == 4) &&
      leads (.clockMonitor ⟨0, true, true⟩) up (fun t => (rg t .clk rClkState).bit 3 && (rg t .clk rClkState).bit 2)) = true := by decide +kernel

theorem test_saddle_clock : exec (.clockMonitor ⟨0, true, false⟩) (withRegs [(.clk, rClkState, 8)] up) = .fault .saddleClockLost := rfl

/-- A round in which sensor 1088 reads `x` eighths of a degree. -/
def round (x : Option Int) : Round := ⟨[(1088, x)], [], none, none, 100, 0⟩
/-- A request to slow down stands. -/
def slow : State := { withRegs [(.thm, rThmSlow, 1)] up with therm := { graceEnd := some 20 } }

theorem witness_heat :
    (((round (some 440)).sensors.find? (fun e => e.1.val == 1088) == some (1088, some 440)) && !up.therm.stopped &&
      (round none).sensors.find? (fun e => e.1.val == 1088) == some (1088, none) && meets (.ack pf0 (10 * 2 ^ 32 + 1 * 2 ^ 9)) slow (fun t => (rg t .thm rThmSlow).field 41 32 == 10 && rf slow .thm rThmSlow 2 0 == 1) &&
      meets (.coolantWrite pf0 (2 ^ 63 + 100)) up (fun t => (rg t .thm rThmCoolant).field 11 0 == 100) &&
      (rg (withRegs [(.thm, rThmCoolant, 2 ^ 63)] up) .thm rThmCoolant).bit 63) = true := by decide +kernel

theorem test_heat :
    (leads .graceExpiry slow (fun t => t.therm.graceEnd == none && t.cyc == 20) &&
      leads (.ack pf0 (10 * 2 ^ 32 + 1 * 2 ^ 9)) slow (fun t => t.therm.answered && t.therm.graceEnd == none) &&
      leads (.ack pf0 (10 * 2 ^ 32)) up (fun t => !t.therm.answered) &&
      leads (.coolantWrite pf0 (2 ^ 63 + 100)) up (fun t => t.therm.flowKnown && t.therm.lastCoolant == some 0) &&
      leads .coolantStale (withRegs [(.thm, rThmCoolant, 2 ^ 63)] up) (fun t => (rg t .thm rThmCoolant).bit 62)) = true := by decide +kernel

/-! The saddle controller, handover, log. -/

/-- `up` with an image running. -/
def running (f : Firmware) : State := { up with sec := { running := some f } }
/-- The image in a half of empty image RAM. -/
def blank : Firmware := imageIn [] false

theorem witness_saddle_good : (running blank).sec.running = some blank ∧ (imageIn (running blank).bup.imageRam blank.half).digest = blank.digest := ⟨rfl, rfl⟩

theorem test_saddle :
    (leads (.scFault .residue) (running ⟨0, 0, 0, false⟩) (fun t => scState t == 1) && leads .scbeatAdvance (running ⟨0, 0, 0, false⟩) (fun t => t.sec.scBeat == 1 && t.cyc == 1500000)) = true := by
  decide +kernel

theorem witness_handover :
    (meets (.handoverGo pf0 0x200) up (fun t => rf t .sec rSecHoctrl 22 0 == 0x200 && hostate up == hoIDLE) &&
      meets (.handoverAbort pf0 0) (withRegs [(.sec, rSecFwstat, 4)] up) (fun _ => true) && meets (.handoverAbort pf0 0) (withRegs [(.sec, rSecFwstat, 2)] up) (fun _ => true) &&
      meets (.svngo pf0 (0x5E * 2 ^ 48)) up (fun _ => true) && meets (.revgo pf0 (0x5E * 2 ^ 48)) up (fun _ => true) &&
      meets (.revgo pf0 0) up (fun _ => true) && quiescent up) = true := by decide +kernel

/-- An image of a version above the floor. -/
def newer : Firmware := ⟨0, 1, Config.minSvn + 1, false⟩
/-- `up` in a HOSTATE, with an image waiting. -/
def handing (ho : Nat) : State := { withRegs [(.sec, rSecFwstat, ho)] up with sec := { running := some ⟨0, 0, 1, true⟩, waiting := some ⟨0, 1, 2, false⟩ } }

theorem witness_svn : minSvn (running newer) < newer.svn := by simp [minSvn, running, newer, up]
theorem witness_hostates : hostate (handing 1) = hoLOADING ∧ hostate (handing 3) = hoAWAIT ∧ hostate (handing 4) = hoPROBATION ∧
    quiescent (handing 3) = true ∧ scState (handing 3) = 0 ∧ (handing 4).sec.beatsLeft = 0 := by decide +kernel

theorem test_handover :
    (leads (.handoverGo pf0 0x200) up (fun t => hostate t == hoLOADING) && leads (.handoverGo pf0 0x1FF) up (fun t => hostate t == hoIDLE) &&
      leads (.handoverAbort pf0 0) (handing 3) (fun t => hostate t == hoIDLE && t.sec.waiting == none) &&
      leads (.handoverAbort pf0 0) (handing 4) (fun t => hostate t == hoPROBATION) &&
      leads .handoverLoaded ((handing 1).setPort false {}) (fun t => hostate t == hoFAILED) &&
      leads .quiescentPoint (handing 3) (fun t => hostate t == hoPROBATION && t.sec.beatsLeft == 100 && t.sec.kept == some ⟨0, 0, 1, true⟩) &&
      leads .quiescenceTimeout (handing 3) (fun t => hostate t == hoFAILED) && leads .probationEnd (handing 4) (fun t => hostate t == hoDONE) &&
      leads (.svngo pf0 0) up (fun t => t.sec.minSvnBurnt == 0)) = true := by decide +kernel

/-- `up` with an entry pending at source 7, in DMA mode or not. -/
def logging (dma : Bool) : State :=
  { withRegs [(.ras, rLogDma, (if dma then 2 ^ 63 else 0) + 2 ^ 48 + 0x3000)] up with glow := { pend := [(7, ⟨7, .sensorSuspect, 5⟩)] } }

theorem witness_log :
    (nextEntry (logging false) == some (7, ⟨7, .sensorSuspect, 5⟩) && !logDma (logging false) && logDma (logging true) &&
      nextEntry up == none && meets (.rdseqWrite pf0 0) up (fun _ => true) && meets (.rdseqWrite pf0 1) up (fun t => rf t .ras rLogRdseq 31 0 == 1 && undrained up == 0) &&
      meets (.logClr pf0 (2 ^ 32)) up (fun t => rf t .ras rLogCtrl 43 32 == 1)) = true := by decide +kernel

theorem test_log :
    (leads .logTake (logging false) (fun t => rf t .ras rLogWrseq 31 0 == 1 && t.glow.pend == [] && (SMap.get [] t.glow.slots 0).length == 32) &&
      leads .logTake (logging true) (fun t => rf t .ras rLogRdseq 31 0 == 1 && t.hostMem0.readNat 0x300C 2 == 7) &&
      leads (.rdseqWrite pf0 1) up (fun t => rf t .ras rLogRdseq 31 0 == 0) &&
      leads (.logClr pf0 (2 ^ 32)) (withRegs [(.ras, rLogCount, 9)] up) (fun t => rg t .ras rLogCount == 0)) = true := by decide +kernel

/-! Attestation and debug. -/

/-- Six key sets of stream 0. -/
def sets : List IdeSet := [⟨0, false, false, 0⟩, ⟨0, false, false, 1⟩, ⟨0, false, false, 2⟩, ⟨0, false, true, 0⟩, ⟨0, false, true, 1⟩, ⟨0, false, true, 2⟩]
/-- `up` with session 0 established on port 0 and IDE keys and sets there. -/
def talking (k : List IdeKey) (x : List IdeSet) : State := up.setPort false { up := true, vfs := 32, sessions := [(0, true)], ideKeys := k, ideSecure := x }

theorem witness_attest :
    (sessionOpen (talking [] []) false 0 && !sessionOpen up false 0 && streamSecure ((talking [] sets).portOf false) 0 &&
      !streamSecure (up.portOf false) 0 && keySetOf ⟨0, false, false, 0, 5⟩ == ⟨0, false, false, 0⟩ &&
      (measurement up 9).isNone && (measurement up 5).isSome) = true := by decide +kernel

theorem test_attest :
    (leads (.spdmRequest false .keyExchange) up (fun t => t.port0.sessions == [(0, false)]) &&
      leads (.spdmRequest false .pskExchange) up (fun t => t.sent == [.spdmUnsupported false]) &&
      leads (.spdmRequest false (.endSession 0)) (talking [] []) (fun t => t.port0.sessions == []) &&
      leads (.getMeasurements false 9) up (fun t => t.free == 1) && leads (.ideQuery false 0) (talking [] []) (fun t => t.free == 1) &&
      leads (.ideQuery false 0) up (fun t => t.free == 0) &&
      leads (.keyProg false 0 ⟨0, false, false, 0, 5⟩) (talking [⟨0, false, false, 0, 4⟩] []) (fun t => t.port0.ideKeys == [⟨0, false, false, 0, 5⟩]) &&
      leads (.kSetGo false 0 ⟨0, false, false, 0⟩) (talking [⟨0, false, false, 0, 5⟩] []) (fun t => t.port0.ideSecure == [⟨0, false, false, 0⟩]) &&
      leads (.kSetStop false 0 ⟨0, false, false, 0⟩) (talking [] sets) (fun t => t.port0.ideSecure.length == 5) &&
      leads (.ideIntegrity false 0) (talking [] sets) (fun t => t.port0.ideBroken == [0] && t.port0.ideSecure == [] && !portUp t false)) = true := by
  decide +kernel

/-- `up` with the debug port at a level. -/
def debugging (level : Nat) : State := withRegs [(.sec, rSecDbgctrl, level * 4 + 1)] up

theorem witness_debug :
    (bupStep (atStep 2 1) == 2 && bupStep up == 12 && debugLevel (debugging 2) == 2 && debugLevel up == 0 &&
      meets (.debugRelock pf0 1) (debugging 2) (fun t => (rg t .sec rSecDbgctrl).bit 0) &&
      meets (.debugRelock pf0 (2 ^ 63)) (debugging 2) (fun _ => true) && { up.sec with debugHeld := [(0, 0)] }.debugHeld.has 0 &&
      (placeOf 64 matches .stack 0 64)) = true := by decide +kernel

theorem test_debug :
    (leads .bypass up (fun t => t == up) && leads (.samplePreload [true, false]) up (fun t => t.sec.boundary == [true, false] && t.sent == [.debug [1]]) &&
      leads .extest (atStep 2 1) (fun t => t.sent == [.lands []]) && leads .extest up (fun t => t.sent == []) &&
      leads (.challenge 1) up (fun t => (t.sec.nonce.map (·.2)) == some 1 && t.free == 1) &&
      leads (.unlock [] []) { up with sec := { failures := 2 } } (fun t => t.sec.lockedAt == some 0 && rf t .sec rSecDbgctrl 31 16 == 1) &&
      leads .challengeLockoutEnd { up with sec := { failures := 3, lockedAt := some 0 } } (fun t => t.sec.lockedAt == none && t.cyc == 90000000000) &&
      leads (.debugRelock pf0 (2 ^ 63)) (debugging 2) (fun t => debugLevel t == 0) &&
      leads (.debugPortAccess .haltSaddle) (debugging 2) (fun t => debugStopped t 0) && leads (.debugPortAccess .haltSaddle) (debugging 1) (fun t => !debugStopped t 0) &&
      leads (.debugPortAccess (.readMemory 64 2)) { debugging 2 with mem := [(64, 9)] } (fun t => t.sent == [.debug [9, 0]]) &&
      leads (.debugPortAccess (.writeMemory 64 [7])) (debugging 2) (fun t => t.mem == [(64, 7)])) = true := by decide +kernel

/-! The cairn. -/

/-- A powered cairn. -/
def metering (c : Cairn) : State := { up with cairn := { c with powered := true } }
/-- The interval of the example of spec/15_security_cairn.md. -/
def interval : CairnInterval := ⟨[90720000, 7920000, 10320000, 2640000, 13560000, 360000, 132000, 0, 10800], true⟩
/-- A frame of 192 bytes. -/
def frame : List Byte := List.replicate 192 0

/-- The billing example: SEQ 41,002 brings CUMUL from 2,514,362,566,000 mJ to 2,514,488,228,800 mJ, its interval 125,662,800 mJ. -/
theorem test_billing : leads (.cairnRecord interval) (metering { seq := 41002, cumul := 2514362566000 }) (fun t =>
    t.cairn.cumul == 2514488228800 && (t.cairn.history.map fun r => (r.seq, r.interval)) == [(41002, 125662800)]) = true := by decide +kernel

theorem test_cairn :
    (leads (.cairnPowerup true true) up (fun t => t.cairn.powered && t.cairn.eventCount == 1) &&
      leads (.cairnRomCheck false) (metering {}) (fun t => t.cairn.romFault && t.cairn.eventCount == 1) &&
      leads .cairnPowerFail (metering {}) (fun t => !t.cairn.powered) && leads (.cairnDipDetect 0 0) (metering {}) (fun t => t.cairn.dip) &&
      leads (.currentBeyondSensorRange 0 0) (metering {}) (fun t => t.cairn.overrange) &&
      leads (.cairnSensorFault 0) (metering {}) (fun t => t.cairn.newEvents) && leads .ident (metering {}) (fun t => t.sent.length == 1) &&
      leads (.recall 5) (metering {}) (fun t => t.sent == [.reader 0x8F [2]]) && leads (.readerEvent 5) (metering {}) (fun t => t.sent == [.reader 0x8F [2]]) &&
      leads (.readerUnknownType 9 false) (metering {}) (fun t => t.sent == [.reader 0x8F [1]]) &&
      leads (.cairnFrameReceive frame false) up (fun t => rf t .crn rCrnStat 31 16 == 1) &&
      leads .cairnSilent up (fun t => (rg t .crn rCrnStat).bit 2 && t.cyc == 180000000000)) = true := by decide +kernel

theorem witness_cairn : bupPast up 1 = true ∧ resetting up .device = false ∧ frame.length = 192 ∧ (rg up .crn rCrnStat).bit 2 = false := by decide +kernel

/-! Sends with a route. -/

/-- `queued` with device 1 behind link 0, which is up. -/
def routed (q2 : Queue) : State := withRegs [(.fab, rFabFwde 1, 2 ^ 63), (.fab, rFabLinkstatl 0, 4 * 2 ^ 38)] (queued {} {} q2)
/-- `sendCmd` in the managed class, of the line at 0x1000. -/
def managedCmd : BitVec 128 := sendCmd + 1 <<< 51

theorem witness_send : headToStart (routed (atHead (cmd managedCmd))) 0 2 0x21 = some (0, cmd managedCmd) ∧
    oldestOf (((routed (inFlight managedCmd)).tile 0).qOf 2) 0x21 = some 0 ∧
    (match sendStart (routed (atHead (cmd managedCmd))) 0 managedCmd with | .ok l => l == 0 | .error _ => false) = true := by decide +kernel

theorem test_send :
    (leads (.fsend 0) (routed (atHead (cmd managedCmd))) (fun t => ((t.tile 0).qOf 2).flights.length == 1 && ((t.tile 0).qOf 2).held == []) &&
      leads (.fsendDone 0) (routed (inFlight managedCmd)) (fun t => ((t.tile 0).qOf 2).flights == [] && t.cyc == 100)) = true := by decide +kernel

/-! The device as a whole. -/

theorem witness_queue : State.reset.pending = [] ∧ leads (.nop sp ⟨0, 0, 0⟩) ready (fun t => pcOf sp t == 4) = true := by decide +kernel
theorem witness_memories : ready.MemWf = true ∧ (windowed [(64, 9)]).MemWf = true := by decide +kernel
theorem witness_step : (match step { dipped with pending := [.supplyDip 3] } with | .next t => t.pending == [] && t.therm.warned == [3] | _ => false) = true := by
  decide +kernel
theorem witness_cairns : isCairns (.hbeat pf0 0) = false ∧ isCairns .ident = true := ⟨rfl, rfl⟩
theorem witness_reset_exclusive : Exclusive State.reset := by
  refine ⟨fun _ h => absurd h List.not_mem_nil, fun p _ hp _ _ h => ?_⟩
  have : ∀ p, p < 32 → partValid State.reset p = false := by decide +kernel
  simp [this p hp] at h
theorem witness_reset_registers : regDesc (.hif false) rHifStewcfg = some dHifStewcfg ∧ dHifStewcfg.reset = 0xFA000007D0 := by decide +kernel
/-- Partitions 0 and 1 hold cluster 0 and cluster 1. -/
theorem witness_two_partitions :
    (let s := withEff [(.part 1, rPartComp, 2 ^ 63 + 2)] up
     partValid s 0 && partValid s 1 && (rgEff s (.part 0) rPartComp &&& rgEff s (.part 1) rPartComp).field 31 0 == 0) = true := by decide +kernel
theorem witness_floor : slotRevoked { up with sec := { keyRevBurnt := 0xF } } 2 = true := by
  simp [slotRevoked, keyRev]

/-! Ill-formed commands. -/

theorem refused_counter : (Instr.counterAdd ⟨0x1000, 0⟩).wf = false ∧ (Instr.counterAdd ⟨0, 256⟩).wf = false := by decide
theorem refused_request : (Instr.stackRequest ⟨0, 0x3000000000, false, none⟩).wf = false := by decide
theorem refused_refresh : (Instr.stackRefresh 4 0 32).wf = false ∧ (Instr.stackRefresh 0 32 0).wf = false := by decide
theorem refused_margin : (Instr.marginDone 0 []).wf = false := by decide
theorem refused_width : (Instr.linkUp 0 ⟨0xF, 0, 0, 3, []⟩).wf = false ∧ (Instr.linkRealigned 0 0).wf = false := by decide
theorem refused_header : (Instr.fabricArrival 0 (hdr 0) []).wf = false := by decide
theorem refused_lane : (Instr.ridgeRetestDone 0 true [68]).wf = false := by decide
theorem refused_guest : (Instr.guestLinkActive 7 1).wf = false ∧ (Instr.guestLinkActive 1 0).wf = false := by decide
theorem refused_bringup : (Instr.bupStepDone (2 ^ 32) nothing).wf = false := by decide
theorem refused_stream : (Instr.keyProg false 0 ⟨5, false, false, 0, 0⟩).wf = false ∧ (Instr.kSetGo false 0 ⟨0, false, false, 3⟩).wf = false ∧
    (Instr.kSetStop false 0 ⟨5, false, false, 0⟩).wf = false ∧ (Instr.ideIntegrity false 5).wf = false := by decide
theorem refused_debug : (Instr.challenge 3).wf = false ∧ (Instr.unlock [] []).wf = false := by decide
theorem refused_cairn : (Instr.cairnRecord ⟨[], true⟩).wf = false ∧ (Instr.cairnFrameReceive [] true).wf = false := by decide
theorem refused_access : (Instr.registerWrite ⟨false, 0, 0x2000000, 64⟩ 0).wf = false := by decide

/-! Further clauses: a state for each that meets its hypotheses. -/

/-- An uncorrectable word at the PC; a unit that issues again on cycle 5. -/
theorem witness_fetch :
    ((fetch sp { ready with ecc := [((MemId.store 0).key, { poison := [0] })] }).1 == none && 
      turn { ready with boards := [(unitKey sp, { next := 5 })] } sp == some (img, 5) &&
      turn ({ ready with boards := [(unitKey sp, { next := 5 })] }.upTo 5) sp == some (img, 5)) = true := by decide +kernel

/-- `opened` with one line, and a translation of the page at 0x10000 that its tile holds. -/
def staging : State := opened.updTile 0 fun x => { x with
  group := some { ctx := 0 }, tbuf := [⟨0, 0x10000, 65536, some 0x40000, false, false⟩] }

theorem witness_translations :
    (tbufFind (staging.tile 0).tbuf 0 0x10040).isSome = true ∧ tbufFind (staging.tile 0).tbuf 0 0x20000 = none ∧
      SMap.get ⟨32, 0, 0, none, false, false⟩ (staging.tile 0).answers 0 = ⟨32, 0, 0, none, false, false⟩ ∧
      (SMap.get ⟨32, 0, 0, none, false, false⟩ [(0, ⟨0, 0x20000, 1, some 64, false, false⟩)] 0 : TEntry).va = 0x20000 := by decide +kernel

theorem test_translations :
    (leads (.kvapp sp ⟨0, 1, 2, 0⟩) (setG sp 1 0x10040 staging) (fun t =>
        ((t.tile 0).group.map (·.ops.length)) == some 1 && t.walks == [] && pcOf sp t == 4) &&
      leads (.kvapp sp ⟨0, 1, 2, 0⟩) (setG sp 1 0x20000 staging) (fun t =>
        t.walks == [⟨0, 0x20000, .use 0 0, 0, true⟩] && pcOf sp t == 0) &&
      leads (.kvapp sp ⟨0, 1, 2, 0⟩) (setG sp 1 (2 ^ 52) staging) (fun t => (ctxAt t 0 0).code == Code.outOfRange)) = true := by decide +kernel

/-- Commits that are frozen, that a lower tile's group of the same cycle precedes, that fail a check, and whose advances or
counter have still to arrive. -/
theorem witness_commit_clauses :
    (commitsFrozen (withRegs [(.clk, rClkState, 1)] up) &&
      lowerCommits ((committing (.committing 3 0)).setTile 1 { group := some { ctx := 0, phase := .committing 3 0 } }) 0 1 0 &&
      (match commitChecks (committing (.committing 3 0)) 0 0 { ctx := 0, ops := [.twr 0 0x40], phase := .committing 3 0 } with
        | .ok _ => false
        | .error _ => true) &&
      [(⟨⟨0, 9⟩, 4, 7⟩ : Add)].any (fun x => x.c == ⟨0, 9⟩ && decide (x.due ≤ 20)) &&
      countersMoving (up.setPart 0 { repairs := [(0, 14)] }) ⟨14, 3⟩ && !countersMoving (up.setPart 0 { repairs := [(0, 14)] }) ⟨13, 3⟩) = true := by
  decide +kernel

/-- Walks for an instruction and for a pin; an invalidation in progress. -/
theorem test_walk_uses :
    (leads (.walkDone 0) { up with walks := [⟨0, 0x10040, .use 0 2, 0, true⟩] } (fun t =>
        (SMap.get ⟨32, 0, 0, none, false, false⟩ (t.tile 0).answers 2 : TEntry).va == 0x10040 && (t.tile 0).tbuf == []) &&
      leads (.walkDone 0) { up with walks := [⟨0, 0x10000, .tpin 0 true, 0, true⟩] } (fun t => ((t.tile 0).tbuf.map (·.pinNext)) == [true]) &&
      leads (.xltinv pf0 0 0) (withRegs [(.kvp 0, rKvpXltinv, 2 ^ 61)] up) (fun t => t.walks == [] &&
        rf t (.kvp 0) rKvpErrcode 15 0 == Code.wrongState.toNat) &&
      pinWalks { up with walks := [⟨0, 0x10000, .tpin 0 true, 0, true⟩] } 0 true) = true := by decide +kernel

/-- The rows of a drain that are written before the cycle of a reader. -/
theorem test_settle :
    (let s := queued { flights := [{ entry := cmd drainCmd, start := 5, due := 21, act := List.replicate 32 7 }] } {} {}
     (settleDrains 0 0 21 s).tile 0 == s.tile 0 && ((settleDrains 0 0 22 s).tile 0).store.readBytes 0x4000 4 == [7, 7, 7, 7] &&
      (((settleDrains 0 0 22 s).tile 0).qOf 0).flights.map (·.written) == [1]) = true := by decide +kernel

theorem witness_armed_run : meets (.partRunEpoch pf0 0 (2 ^ 63)) (withRegs [(.part 0, rPartRunepoch, 2 ^ 63 + 2 ^ 62)] up)
    (fun t => (rg t (.part 0) rPartRunepoch).bit 63) = true := by decide +kernel

/-- Epochs: with a partition RUNNING and without. -/
theorem witness_running : (anyRunning (trvIn 3 0 {} up) && !anyRunning up && nextMark (trvIn 3 0 {} up) == 8192) = true := by decide +kernel

/-- Slots: none left in the epoch, in a cluster whose PLL is off, and with a row to copy; passes that wait for a READY core. -/
theorem witness_slots :
    (nextSlot (up.setTile 0 { lastSlot := some 8191 }) 0 == none && (nextSlot up 0).isSome && pllOff (withRegs [(.clk, rClkPll, 0)] up) 0 &&
      leads (.sliceRefreshSlot 0) (up.setTile 0 { rowret := some 5 }) (fun t => (t.tile 0).rowCopied) &&
      leads (.sliceRefreshSlot 0) (withRegs [(.clk, rClkPll, 0)] up) (fun t => (t.tile 0).refreshRow == 1) &&
      leads (.slRowret pf0 0 0) (withRegs [(.clk, rClkPll, 0)] up) (fun t => (t.tile 0).rowret == none) &&
      maintenanceWaits (withRegs [(.memc 4, rMemcScrubstat, 2 ^ 62)] (up.setGrotto 0 { st := .ready })) 4 true &&
      maintenanceWaits ((up.setGrotto 0 { st := .ready }).setStack 4 { bankret := some (0, 0) }) 4 false) = true := by decide +kernel

/-- A request behind an excess access of its own unit, one during a margin sweep, and an access before its turn. -/
theorem witness_service :
    (margining (withRegs [(.memc 0, rMemcMargctrl, 2)] up) 0 && !margining up 0 &&
      excessTurn (up.setStack 0 { accesses := [⟨⟨0, 0, false, none⟩, false, none⟩] }) 0 0 ⟨⟨0, 0, false, none⟩, false, none⟩ &&
      !excessTurn (up.setStack 0 { accesses := [⟨⟨1, 0, false, none⟩, false, none⟩, ⟨⟨0, 0, false, none⟩, false, none⟩] }) 0 0
        ⟨⟨1, 0, false, none⟩, false, none⟩) = true := by decide +kernel

/-- Two cores launched on one grotto cycle: the lower number first; a full stack; an operation that runs while units wait. -/
theorem test_grotto_order :
    (let s := (core { launchDue := some 20, img := some img, cnt := [(0, 1)] } false).setGrotto 1 { launchDue := some 21, img := some img, cnt := [(0, 1)] }
     launchesFirst (withEff [(.grt 0, rGrtOwnk 1, 2 ^ 63)] s) 1 21 && !launchesFirst s 0 20 &&
      leads (.grottoRefreshOpDone 0) (core { st := .wait, owed := 2, running := 2 } false) (fun t =>
        (t.grotto 0).owed == 2 && (t.grotto 0).running == 1 && t.cyc == 96) &&
      leads (.ordinaryAccessService 0) (core { st := .ready, queue := [⟨true, true, 0⟩] } false) (fun t =>
        (t.grotto 0).queue == [] && rf t (.grt 0) rGrtIntrude 31 0 == 0)) = true := by decide +kernel

/-- Links: an answer of a narrower peer, a device without a number, its own number, echoes still to come. -/
theorem test_training :
    (leads (.frameReceive 0 (.good 0 ⟨0, 0, 0, 2, true⟩)) (linked 4 {}) (fun t => linkState t 0 == 5) &&
      leads (.linkUp 0 ⟨0xF, 1, 7, 4, sixteen⟩) (withRegs [(.fab, rFabDevid, 0)] (linked 1 {})) (fun t => linkState t 0 == 2) &&
      leads (.linkUp 0 ⟨0xF, 0, 7, 4, sixteen⟩) (linked 1 {}) (fun t => linkState t 0 == 6) &&
      leads (.linkUp 0 ⟨0xF, 1, 7, 4, []⟩) (linked 1 {}) (fun t => linkState t 0 == 3) &&
      leads (.replay 0) (linked 4 { replay := 15 }) (fun t => linkState t 0 == 0)) = true := by decide +kernel

/-- `admitting` with device 1 behind link 0, which is up. -/
def forwarding : State := withRegs [(.fab, rFabFwde 1, 2 ^ 63), (.fab, rFabLinkstatl 0, 4 * 2 ^ 38)] admitting
/-- A scheduled transfer to device 1. -/
def onward : FabHeader := { hdr 1 with managed := false }

theorem test_forwarding :
    (wayOut admitting (.xfer onward []) == none && (match egress forwarding false 1 with | .ok l => l == 0 | .error _ => false) &&
      leads (.fabricArrival 3 onward (List.replicate 64 0)) admitting (fun t => rf t .fab rFabDropcnt 31 0 == 1) &&
      leads (.fabricArrival 3 onward (List.replicate 64 0)) forwarding (fun t => (t.link 0).buf.map (·.units) == [2]) &&
      leads (.failureNotice ⟨3, 1, false, 2, 0, 3, 2, .fabRejected⟩) forwarding (fun t => !(rg t .fab rFabFaillast).bit 16 &&
        (t.link 0).buf.length == 1)) = true := by decide +kernel

/-- A line that arrives on cycle 50 for a delivery cycle of 30 is late. -/
theorem test_late : leads (.scheduledDelivery 0) { trvIn 3 0 { started := true } up with deliveries := [⟨0, 0, hdr 0, [5], 50, 30, false⟩] } (fun t =>
    t.cyc == 50 && (t.tile 0).store == [(0, 5)] && rf t .fab (rFabLinkschl 0) 63 32 == 1) = true := by decide +kernel

/-- A reset by supply completes at once; a tile that has not drained does not. -/
theorem test_reset_drain :
    (leads (.resetDone .device) (withRegs [(.rst, rRstCause, 2)] { queued (inFlight 4) {} {} with bup := { up.bup with resets := [.device] } }) (fun t =>
        t.bup.resets == [] && t.tiles == []) &&
      drained { queued (inFlight 4) {} {} with bup := { up.bup with resets := [.tile 0] } } (.tile 0) == false) = true := by decide +kernel

/-- The guest's link put under reset, and trained again. -/
theorem witness_greset :
    (!guested.therm.guestHot && (valueOf pf0 1).bit 0 && !(valueOf pf0 1).bit 1 && !(rg up .gst rGstCtrl).bit 0 && !fencing up) = true := by decide +kernel

/-- A register that the debug port reads: BUP_STATE, at 0x100000. -/
theorem witness_debug_place : (pf0Place (stewardPort up) 0x100000).isSome = true := by decide +kernel

/-- 2.0, whose reciprocal is a normal number. -/
theorem witness_special : Denotes 0x40000000 2 ∧ NormalResult (1 / 2) := by
  refine ⟨⟨false, 2 ^ 23, -22, by decide +kernel, by norm_num⟩, ?_, ?_⟩
  · rw [abs_of_pos (by norm_num)]
    calc (2 : ℝ) ^ (-126 : ℤ) ≤ 2 ^ (-1 : ℤ) := zpow_le_zpow_right₀ (by norm_num) (by norm_num)
      _ = 1 / 2 := by norm_num
  · rw [abs_of_pos (by norm_num)]
    calc (1 / 2 : ℝ) < 1 := by norm_num
      _ ≤ 2 ^ (128 : ℤ) := one_le_zpow₀ (by norm_num) (by norm_num)

/-! Words of Alori instructions (spec/04_alori_reference.md). -/

/-- The words that the spec writes out: QPUSH of v5 to the matrix queue, KVAPP g10, g11 and CGCOMMIT g12. -/
theorem words_of_the_spec : decodeAlori sp 0xD8002800 = some (.qpush sp ⟨0, 0, 5, 0⟩) ∧ decodeAlori sp 0xD40A5802 = some (.kvapp sp ⟨0, 10, 11, 0⟩) ∧
    decodeAlori sp 0xD00C0001 = some (.cgcommit sp ⟨0, 12, 0, 0⟩) := by decide +kernel

end Sys2Proof.Tests
end

/-! O4. Scalar register operations: each operation of the model is an operation on bit vectors, at every width. -/
namespace Sys2Proof.Machine

/-- The model's operation on a width and two numbers, cut to the width, is the operation `op` on bit vectors. -/
def Computes (natOp : Nat → Nat → Nat → Nat) (op : (w : Nat) → BitVec w → BitVec w → BitVec w) : Prop :=
  ∀ (w : Nat) (a b : BitVec w), natOp w a.toNat b.toNat % 2 ^ w = (op w a b).toNat

/-- A two-operand scalar instruction writes what its operation gives on bit vectors. -/
theorem scalarOp_of_computes {spur : Bool} {c : Agent → FmtA → Instr} {natOp : Nat → Nat → Nat → Nat}
    {op : (w : Nat) → BitVec w → BitVec w → BitVec w}
    (he : ∀ u f s, exec (c u f) s = scalarOp (c u f) u f natOp s)
    (hf : ∀ u f, formCode (c u f) = firstOf [(badG u f.rd || badG u f.ra || badG u f.rb, .illegalValue)])
    (h : Computes natOp op) : ScalarOp spur c op := by
  intro u f s img _ hm hn hform
  refine writesG_of hm hn (he u f s) ((hf u f).symm.trans hform) rfl ?_
  rw [← h, gBits_toNat, gBits_toNat]

/-- A one-operand scalar instruction writes what its operation gives on bit vectors. -/
theorem scalarOp1_of_computes {spur : Bool} {c : Agent → FmtA → Instr} {natOp : Nat → Nat → Nat}
    {op : (w : Nat) → BitVec w → BitVec w → BitVec w}
    (he : ∀ u f s, exec (c u f) s = scalarOp1 (c u f) u f natOp s)
    (hf : ∀ u f, formCode (c u f) =
      firstOf [(f.rb != 0, .reservedBitSet), (badG u f.rd || badG u f.ra, .illegalValue)])
    (h : Computes (fun w a _ => natOp w a) op) : ScalarOp spur c op := by
  intro u f s img _ hm hn hform
  refine writesG_of hm hn (he u f s) ((hf u f).symm.trans hform) rfl ?_
  rw [← h, gBits_toNat]

/-! Numbers in two's complement. -/

/-- The number that a bit vector holds, read in two's complement, is the bit vector's integer. -/
@[simp] theorem signedOf_toNat {w : Nat} (a : BitVec w) : signedOf w a.toNat = a.toInt := by
  simp only [signedOf, Nat.mod_eq_of_lt a.isLt, BitVec.toInt_eq_toNat_cond]
  cases w with
  | zero => simp [BitVec.of_length_zero]
  | succ k =>
    have hpow : 2 ^ (k + 1) = 2 * 2 ^ k := by rw [Nat.pow_succ, Nat.mul_comm]
    simp only [Nat.add_sub_cancel, hpow, Nat.mul_lt_mul_left (show 0 < 2 by decide)]

/-- The first one bit of a nonzero bit vector from the top stands after as many zeros as the model counts. -/
theorem leadingZeros_eq {w : Nat} (a : BitVec w) :
    leadingZeros w a.toNat = ((List.range w).takeWhile fun i => !a.getMsbD i).length := by
  unfold leadingZeros
  split
  next h0 =>
    have hall : ∀ i ∈ List.range w, (!a.getMsbD i) = true := by
      simp [BitVec.eq_of_toNat_eq (y := 0#w) (by simpa using h0)]
    rw [List.takeWhile_eq_self_iff.2 hall, List.length_range]
  next h0 =>
    have hlog : a.toNat.log2 < w := (Nat.log2_lt h0).2 a.isLt
    obtain ⟨k, hk⟩ : ∃ k, w = k + (a.toNat.log2 + 1) := ⟨w - 1 - a.toNat.log2, by omega⟩
    have hzero : ∀ i ∈ List.range k, (!a.getMsbD i) = true := by
      intro i hi
      have hi : i < k := List.mem_range.1 hi
      have hlt : a.toNat < 2 ^ (w - 1 - i) :=
        Nat.lt_of_lt_of_le Nat.lt_log2_self (Nat.pow_le_pow_right (by decide) (by omega))
      simp [BitVec.getMsbD_eq_getLsbD, BitVec.getLsbD, Nat.testBit_lt_two_pow hlt]
    have hone : a.getMsbD k = true := by
      have : w - 1 - k = a.toNat.log2 := by omega
      simp [BitVec.getMsbD_eq_getLsbD, BitVec.getLsbD, this, Nat.testBit_log2 h0, show k < w by omega]
    have hrange : List.range w = List.range k ++ (List.range (a.toNat.log2 + 1)).map (k + ·) := by
      rw [← List.range_add, ← hk]
    rw [hrange, List.takeWhile_append_of_pos hzero, List.range_succ_eq_map]
    simp [hone]
    omega

/-! The operations. -/

theorem Computes.of_eq {natOp : Nat → Nat → Nat → Nat} {op : (w : Nat) → BitVec w → BitVec w → BitVec w}
    (h : ∀ (w : Nat) (a b : BitVec w), natOp w a.toNat b.toNat = (op w a b).toNat) : Computes natOp op := by
  intro w a b
  rw [h, Nat.mod_eq_of_lt (BitVec.isLt _)]

theorem add_computes : Computes (fun w a b => (a + b) % 2 ^ w) fun _ a b => a + b :=
  .of_eq fun _ a b => (BitVec.toNat_add a b).symm

theorem sub_computes : Computes (fun w a b => (a + 2 ^ w - b) % 2 ^ w) fun _ a b => a - b := by
  refine .of_eq fun w a b => ?_
  have hb := b.isLt
  rw [BitVec.toNat_sub]
  congr 1
  omega

theorem and_computes : Computes (fun _ a b => a &&& b) fun _ a b => a &&& b :=
  .of_eq fun _ a b => (BitVec.toNat_and a b).symm

theorem or_computes : Computes (fun _ a b => a ||| b) fun _ a b => a ||| b :=
  .of_eq fun _ a b => (BitVec.toNat_or a b).symm

theorem xor_computes : Computes (fun _ a b => a ^^^ b) fun _ a b => a ^^^ b :=
  .of_eq fun _ a b => (BitVec.toNat_xor a b).symm

theorem sll_computes : Computes (fun w a b => (a <<< (b % w)) % 2 ^ w) fun w a b => a <<< (b.toNat % w) :=
  .of_eq fun _ _ _ => BitVec.toNat_shiftLeft.symm

theorem srl_computes : Computes (fun w a b => a >>> (b % w)) fun w a b => a >>> (b.toNat % w) :=
  .of_eq fun w a b => (BitVec.toNat_ushiftRight a (b.toNat % w)).symm

/-- A shift that divides the integer, rounding down, is the arithmetic shift of the bit vector. -/
theorem sra_computes : Computes (fun w a b => unsignedOf w (signedOf w a / 2 ^ (b % w)))
    fun w a b => a.sshiftRight (b.toNat % w) := by
  refine .of_eq fun w a b => ?_
  rw [signedOf_toNat, unsigned_ofInt, BitVec.sshiftRight, Int.shiftRight_eq_div_pow, Nat.cast_pow, Nat.cast_ofNat]

theorem min_computes : Computes (fun w a b => if signedOf w a ≤ signedOf w b then a else b)
    fun _ a b => if a.sle b then a else b := by
  refine .of_eq fun w a b => ?_
  simp only [signedOf_toNat, BitVec.sle_eq_decide, decide_eq_true_eq, apply_ite BitVec.toNat]

theorem max_computes : Computes (fun w a b => if signedOf w a ≤ signedOf w b then b else a)
    fun _ a b => if a.sle b then b else a := by
  refine .of_eq fun w a b => ?_
  simp only [signedOf_toNat, BitVec.sle_eq_decide, decide_eq_true_eq, apply_ite BitVec.toNat]

theorem minu_computes : Computes (fun _ a b => min a b) fun _ a b => if a.ule b then a else b := by
  refine .of_eq fun w a b => ?_
  simp only [Nat.min_def, BitVec.ule_eq_decide, decide_eq_true_eq, apply_ite BitVec.toNat]

theorem maxu_computes : Computes (fun _ a b => max a b) fun _ a b => if a.ule b then b else a := by
  refine .of_eq fun w a b => ?_
  simp only [Nat.max_def, BitVec.ule_eq_decide, decide_eq_true_eq, apply_ite BitVec.toNat]

/-- A compare writes 1 or 0, at the width (R119). -/
theorem ite_mod_eq_toNat (w : Nat) (p : Prop) [Decidable p] :
    (if p then 1 else 0) % 2 ^ w = (if p then 1#w else 0#w).toNat := by
  split <;> rfl

theorem cmpeq_computes : Computes (fun _ a b => if a = b then 1 else 0) fun w a b => if a = b then 1#w else 0#w := by
  intro w a b
  simp only [ite_mod_eq_toNat, BitVec.toNat_inj]

theorem cmplt_computes : Computes (fun w a b => if signedOf w a < signedOf w b then 1 else 0)
    fun w a b => if a.slt b then 1#w else 0#w := by
  intro w a b
  simp only [ite_mod_eq_toNat, signedOf_toNat, BitVec.slt_eq_decide, decide_eq_true_eq]

theorem cmpltu_computes : Computes (fun _ a b => if a < b then 1 else 0)
    fun w a b => if a.ult b then 1#w else 0#w := by
  intro w a b
  simp only [ite_mod_eq_toNat, BitVec.ult_eq_decide, decide_eq_true_eq]

theorem mul_computes : Computes (fun w a b => a * b % 2 ^ w) fun _ a b => a * b :=
  .of_eq fun _ a b => (BitVec.toNat_mul a b).symm

theorem mulh_computes : Computes (fun w a b => unsignedOf w (signedOf w a * signedOf w b / 2 ^ w))
    fun w a b => BitVec.ofInt w (a.toInt * b.toInt / 2 ^ w) := by
  refine .of_eq fun w a b => ?_
  rw [signedOf_toNat, signedOf_toNat, unsigned_ofInt]

theorem mulhu_computes : Computes (fun w a b => a * b / 2 ^ w) fun w a b => BitVec.ofNat w (a.toNat * b.toNat / 2 ^ w) :=
  fun _ _ _ => (BitVec.toNat_ofNat _ _).symm

theorem clz_computes : Computes (fun w a _ => leadingZeros w a)
    fun w a _ => BitVec.ofNat w ((List.range w).takeWhile fun i => !a.getMsbD i).length := by
  intro w a _
  simp only [leadingZeros_eq, BitVec.toNat_ofNat]

theorem popc_computes : Computes (fun w a _ => oneBits w a)
    fun w a _ => BitVec.ofNat w ((List.range w).filter fun i => a.getLsbD i).length := by
  intro w a _
  simp only [oneBits, List.countP_eq_length_filter, BitVec.toNat_ofNat, BitVec.getLsbD]

/-- Table ALR-3 at the width of either unit. -/
theorem scalarOperations (spur : Bool) : ScalarOperations spur :=
  ⟨scalarOp_of_computes exec_add (fun _ _ => rfl) add_computes,
    scalarOp_of_computes exec_sub (fun _ _ => rfl) sub_computes,
    scalarOp_of_computes exec_and (fun _ _ => rfl) and_computes,
    scalarOp_of_computes exec_or (fun _ _ => rfl) or_computes,
    scalarOp_of_computes exec_xor (fun _ _ => rfl) xor_computes,
    scalarOp_of_computes exec_sll (fun _ _ => rfl) sll_computes,
    scalarOp_of_computes exec_srl (fun _ _ => rfl) srl_computes,
    scalarOp_of_computes exec_sra (fun _ _ => rfl) sra_computes,
    scalarOp_of_computes exec_min (fun _ _ => rfl) min_computes,
    scalarOp_of_computes exec_minu (fun _ _ => rfl) minu_computes,
    scalarOp_of_computes exec_max (fun _ _ => rfl) max_computes,
    scalarOp_of_computes exec_maxu (fun _ _ => rfl) maxu_computes,
    scalarOp_of_computes exec_cmpeq (fun _ _ => rfl) cmpeq_computes,
    scalarOp_of_computes exec_cmplt (fun _ _ => rfl) cmplt_computes,
    scalarOp_of_computes exec_cmpltu (fun _ _ => rfl) cmpltu_computes,
    scalarOp_of_computes exec_mul (fun _ _ => rfl) mul_computes,
    scalarOp_of_computes exec_mulh (fun _ _ => rfl) mulh_computes,
    scalarOp_of_computes exec_mulhu (fun _ _ => rfl) mulhu_computes,
    scalarOp1_of_computes exec_clz (fun _ _ => rfl) clz_computes,
    scalarOp1_of_computes exec_popc (fun _ _ => rfl) popc_computes⟩

/-- Settles O4, as the spur case of Table ALR-3 at every width. -/
theorem scalarInSpurCores : Obligations.ScalarInSpurCores := scalarOperations true

end Sys2Proof.Machine

/-! O15. Instructions that halt in their bodies, go on or wait, and the waits on counters. -/
namespace Sys2Proof.Machine

/-- An instruction that passes its checks and finds a fault in what it does halts its unit. -/
theorem issue_bodyHalt {c : Instr} {u : Agent} {s : State} {img : Img} (h : Issues c u s img)
    {checks : List (Bool × Code)} (hc : firstOf checks = none) {body : State → Issue} {e : Code} (hb : body s = .halt e) :
    issue c u s checks body = .next (granted c u s (haltUnit u e s)) := by
  rw [issue_eq h, hc]
  simp only [hb, settle]

/-- An instruction that passes its checks and waits leaves its unit in WAIT at the next instruction (R82). -/
theorem issue_wait {c : Instr} {u : Agent} {s t : State} {img : Img} (h : MayIssue c u s img) (hn : NotLast u s img)
    {checks : List (Bool × Code)} (hc : firstOf checks = none) {body : State → Issue} {w : Waiting} (hb : body s = .wait w t) :
    issue c u s checks body = .next (granted c u s (enterWait u w (setPc u (pcOf u s + 4) t))) := by
  rw [issue_eq h.1, hc]
  simp only [hb, settle]
  rw [if_neg hn, if_neg (by simp [h.2])]

/-- An instruction that changes nothing goes on at PC + 4. -/
theorem goesTo_of {c : Instr} {u : Agent} {s : State} {img : Img} (h : MayIssue c u s img) (hn : NotLast u s img)
    {checks : List (Bool × Code)} {body : State → Issue} (he : exec c s = issue c u s checks body)
    (hc : firstOf checks = none) (hb : body s = .go s) : GoesTo c u s (pcOf u s + 4) := by
  refine ⟨_, he.trans (issue_go h hn hc hb),
    unitResult_of (regsChange_go h.ready (.inl rfl) _) (Noted.rfl' _) ?_ ?_ ?_ ?_⟩ <;> simp

/-- A context that enters WAIT keeps its registers. -/
theorem enterWait_setPc_spur (l : Fin 512) (n : Fin 8) (w : Waiting) (pc : Nat) (s : State) :
    enterWait (.spur l n) w (setPc (.spur l n) pc s) =
      setCtxAt (setPc (.spur l n) pc s) l n { ctxAt s l n with pc := pc, st := .wait, wait := w } := by
  simp [enterWait, setPc]

/-- A grotto core that enters WAIT begins the refresh operations owed (R250). -/
theorem enterWait_setPc_grotto (k : Fin 512) (w : Waiting) (pc : Nat) (s : State) :
    enterWait (.grotto k) w (setPc (.grotto k) pc s) =
      s.setGrotto k { ((s.grotto k).rest s.cyc) with pc := pc, st := .wait, wait := w } := by
  simp only [enterWait, setPc, State.grotto_setGrotto, ite_true]
  simp only [Grotto.rest, State.setGrotto, SMap.put_put]
  split <;> rfl

/-- Where a counter exists, a wait for it goes on if its target is reached, else waits (R79, R170). -/
theorem waitOn_of_holder {s : State} {k : Cnt} {x : Holder} (hx : holderOf s k = some x) (target : Nat) :
    waitOn k target s = if target ≤ holderValue s x then .go s else .wait (.counter k target none none) s := by
  simp only [waitOn, hx]

/-- An instruction that passes its checks and waits on a counter does what a wait does. -/
theorem waitDoes_of {c : Instr} {u : Agent} {s : State} {img : Img} (h : MayIssue c u s img) (hn : NotLast u s img)
    {checks : List (Bool × Code)} {body : State → Issue} {k : Cnt} {target : Nat}
    (he : exec c s = issue c u s checks body) (hc : firstOf checks = none) (hb : body s = waitOn k target s) :
    WaitDoes c u s k target := by
  intro x hx
  rw [waitOn_of_holder hx] at hb
  by_cases hreached : target ≤ holderValue s x
  · rw [if_pos hreached] at hb ⊢
    exact goesTo_of h hn he hc hb
  · rw [if_neg hreached] at hb ⊢
    rw [he, issue_wait h hn hc hb]
    cases u with
    | spur l n => rw [enterWait_setPc_spur]
    | grotto k => rw [enterWait_setPc_grotto]; rfl

/-- The target of a CWAIT, as the model and as the statements write it (R131, R161). -/
theorem waitTarget_eq (u : Agent) (b c : Nat) :
    b + (if isSpur u then 1 else 2 ^ 32) * c = if isSpur u then b + c else b + 2 ^ 32 * c := by
  split <;> simp

/-- The counters that a CWAIT may not wait on, in the order of R118. -/
theorem cwaitChecks_eq (target : Nat) (spur : Bool) (dev own block : Nat) (may : Bool) :
    firstOf [(decide (2 ^ 64 ≤ target), Code.waitUnreachable), (dev != own, .outOfRange),
        (!spur && block != 0xFFF, .outOfRange), (!may, .outOfRange)] =
      if 2 ^ 64 ≤ target then some .waitUnreachable
      else if dev ≠ own ∨ (spur = false ∧ block ≠ 0xFFF) ∨ may = false then some .outOfRange
      else none := by
  simp only [firstOf, decide_eq_true_eq, bne_iff_ne, Bool.and_eq_true, Bool.not_eq_true']
  split_ifs <;> grind

/-- CWAIT whose counter operand names a counter: what its checks find, else the wait. -/
theorem cwait_does {u : Agent} {f : FmtQ} {s : State} {img : Img} {dev block index : Nat}
    (h : MayIssue (.cwait u f) u s img) (hn : NotLast u s img) (hf : formCode (.cwait u f) = none)
    (hop : counterOperand u s (getG u s f.ra) = some (dev, block, index)) :
    let target := getG u s f.rb + (if isSpur u then 1 else 2 ^ 32) * getG u s f.rc
    if 2 ^ 64 ≤ target then exec (.cwait u f) s = .next (granted (.cwait u f) u s (haltUnit u .waitUnreachable s))
    else if dev ≠ devId s ∨ (isSpur u = false ∧ block ≠ 0xFFF) ∨ mayWait u s (ownBlock u block index) = false then
      exec (.cwait u f) s = .next (granted (.cwait u f) u s (haltUnit u .outOfRange s))
    else WaitDoes (.cwait u f) u s (ownBlock u block index) target := by
  intro target
  have htarget : (if isSpur u then getG u s f.rb + getG u s f.rc else getG u s f.rb + 2 ^ 32 * getG u s f.rc) = target :=
    (waitTarget_eq u _ _).symm
  clear_value target
  have hchecks := cwaitChecks_eq target (isSpur u) dev (devId s) block (mayWait u s (ownBlock u block index))
  split_ifs at hchecks ⊢
  · exact (exec_cwait u f s).trans (issue_bodyHalt h.1 hf (by simp only [hop, htarget, hchecks]))
  · exact (exec_cwait u f s).trans (issue_bodyHalt h.1 hf (by simp only [hop, htarget, hchecks]))
  · exact waitDoes_of h hn (exec_cwait u f s) hf (by simp only [hop, htarget, hchecks])

/-- CWAIT with a broken counter operand halts (R130). -/
theorem cwait_brokenOperand {u : Agent} {f : FmtQ} {s : State} {img : Img} (h : Issues (.cwait u f) u s img)
    (hf : formCode (.cwait u f) = none) (hop : counterOperand u s (getG u s f.ra) = none) :
    exec (.cwait u f) s = .next (granted (.cwait u f) u s (haltUnit u .illegalValue s)) :=
  (exec_cwait u f s).trans (issue_bodyHalt h hf (by simp only [hop]))

/-- A legal CWAITL names a counter below 128 (Table ALR-9). -/
theorem cwaitl_imm_lt {u : Agent} {f : FmtI} (hf : formCode (.cwaitl u f) = none) : f.imm.toNat < 128 := by
  by_contra hge
  have : 128 ≤ f.imm.toNat := by omega
  simp [formCode, firstOf, this] at hf

/-- CWAITL: a halt past the unit's own block, else the wait. -/
theorem cwaitl_does {u : Agent} {f : FmtI} {s : State} {img : Img} (h : MayIssue (.cwaitl u f) u s img)
    (hn : NotLast u s img) (hf : formCode (.cwaitl u f) = none) :
    if ownCount u ≤ f.imm.toNat then
      exec (.cwaitl u f) s = .next (granted (.cwaitl u f) u s (haltUnit u .outOfRange s))
    else WaitDoes (.cwaitl u f) u s (ownBlock u 0xFFF f.imm.toNat) (getG u s f.ra) := by
  have hindex : f.imm.toNat % 128 = f.imm.toNat := Nat.mod_eq_of_lt (cwaitl_imm_lt hf)
  split
  next hpast =>
    exact (exec_cwaitl u f s).trans (issue_bodyHalt h.1 hf (by simp only [hindex, hpast, ite_true]))
  next hown =>
    exact waitDoes_of h hn (exec_cwaitl u f s) hf (by simp only [hindex, hown, ite_false])

/-- Settles O15: each outcome of the checks of CWAIT and CWAITL, and the wait that they share. -/
theorem unitsWaitOnCounters : Obligations.UnitsWaitOnCounters :=
  ⟨fun _ _ _ _ _ _ _ h hn hf hop => cwait_does h hn hf hop,
    fun _ _ _ _ h hf hop => cwait_brokenOperand h hf hop,
    fun _ _ _ _ h hn hf => cwaitl_does h hn hf⟩

end Sys2Proof.Machine

/-! O17. Commit-group instructions, and the capacity of a commit group. -/
namespace Sys2Proof.Machine

/-! What an issue leaves but for the issue times and the granted debug steps. -/

/-- An issue adds only issue times and the use of a granted debug step. -/
theorem granted_frame (c : Instr) (u : Agent) (s t : State) :
    ∃ b d e, granted c u s t = { t with boards := b, cores := d, sec := e } := by
  cases u with
  | grotto k => exact ⟨_, _, t.sec, rfl⟩
  | spur l n =>
    simp only [granted, finish, spendStep]
    split
    · exact ⟨_, _, _, rfl⟩
    · exact ⟨_, _, t.sec, rfl⟩

@[simp] theorem tile_granted (c : Instr) (u : Agent) (s t : State) (h : Nat) : (granted c u s t).tile h = t.tile h := by
  obtain ⟨b, d, e, ht⟩ := granted_frame c u s t
  rw [ht]; rfl

@[simp] theorem tileAt_granted (c : Instr) (u : Agent) (s t : State) (l : Nat) : tileAt (granted c u s t) l = tileAt t l := by
  obtain ⟨b, d, e, ht⟩ := granted_frame c u s t
  rw [ht]; rfl

@[simp] theorem ctxAt_granted (c : Instr) (u : Agent) (s t : State) (l n : Nat) :
    ctxAt (granted c u s t) l n = ctxAt t l n := by
  simp only [ctxAt, tileAt_granted, tile_granted]

@[simp] theorem tileAt_setPc (u : Agent) (pc : Nat) (s : State) (l : Nat) : tileAt (setPc u pc s) l = tileAt s l := by
  cases u <;> rfl

/-- CGSTAT of a context whose tile holds no group (Table ALR-12). -/
theorem cgStatus_of_noGroup {s : State} {l : Nat} (h : (s.tile (tileAt s l)).group = none) (n : Nat) :
    cgStatus s l n = (ctxAt s l n).cgCode.toNat := by
  simp only [cgStatus, h]

/-- A change of a tile that leaves its store and its slice leaves every memory. -/
theorem memOf_updTile {s : State} {h : Nat} {f : Tile → Tile} (hslice : (f (s.tile h)).slice = (s.tile h).slice)
    (hstore : (f (s.tile h)).store = (s.tile h).store) (i : MemId) : memOf (s.updTile h f) i = memOf s i := by
  cases i with
  | slice j =>
    simp only [memOf, State.tile_updTile]
    split
    next hj => rw [hj, hslice]
    next => rfl
  | store j =>
    simp only [memOf, State.tile_updTile]
    split
    next hj => rw [hj, hstore]
    next => rfl
  | stack k => rfl
  | ls k => rfl

/-! CGBEGIN. -/

section
variable {l : Fin 512} {n : Fin 8} {f : FmtQ} {s : State} {img : Img}

/-- CGBEGIN opens a group where none is open on the tile and its cluster is not paused (R134). -/
theorem cgbegin_opens
    (h : MayIssue (.cgbegin (.spur l n) f) (.spur l n) s img) (hn : NotLast (.spur l n) s img)
    (hf : formCode (.cgbegin (.spur l n) f) = none)
    (hgroup : (s.tile (tileAt s l)).group = none) (hpause : clusterPaused s (clusterOf l) = false) :
    exec (.cgbegin (.spur l n) f) s = .next (granted (.cgbegin (.spur l n) f) (.spur l n) s
      (setPc (.spur l n) (pcOf (.spur l n) s + 4) (setG (.spur l n) f.rd 0 (setGroup (tileAt s l) { ctx := n } s)))) := by
  refine (exec_cgbegin (.spur l n) f s).trans (issue_go h hn hf ?_)
  simp only [hgroup, hpause, Option.isSome_none, Bool.or_false, Bool.false_eq_true, ite_false]
  rfl

/-- CGBEGIN answers WRONG_STATE where a group is open on the tile or its cluster is paused (R134). -/
theorem cgbegin_answers
    (h : MayIssue (.cgbegin (.spur l n) f) (.spur l n) s img) (hn : NotLast (.spur l n) s img)
    (hf : formCode (.cgbegin (.spur l n) f) = none)
    (hbusy : ¬ ((s.tile (tileAt s l)).group = none ∧ clusterPaused s (clusterOf l) = false)) :
    WritesG (.cgbegin (.spur l n) f) (.spur l n) s f.rd Code.wrongState.toNat := by
  have hcond : ((s.tile (tileAt s l)).group.isSome || clusterPaused s (clusterOf l)) = true := by
    cases hg : (s.tile (tileAt s l)).group <;> simp_all
  exact writesG_of (w := Code.wrongState.toNat) h hn (exec_cgbegin (.spur l n) f s) hf
    (by simp only [hcond, ite_true]) rfl

/-! CGCOMMIT. -/

/-- CGCOMMIT outside a group halts; in a group it starts the commit, with a counter of the tile (R132, R138, R142). -/
theorem cgcommit_does
    (h : MayIssue (.cgcommit (.spur l n) f) (.spur l n) s img) (hn : NotLast (.spur l n) s img)
    (hf : formCode (.cgcommit (.spur l n) f) = none) :
    match openGroup s l n with
    | none => exec (.cgcommit (.spur l n) f) s =
        .next (granted (.cgcommit (.spur l n) f) (.spur l n) s (haltUnit (.spur l n) .wrongState s))
    | some g =>
      if 127 < getG (.spur l n) s f.ra then exec (.cgcommit (.spur l n) f) s =
        .next (granted (.cgcommit (.spur l n) f) (.spur l n) s (haltUnit (.spur l n) .outOfRange s))
      else exec (.cgcommit (.spur l n) f) s =
        .next (granted (.cgcommit (.spur l n) f) (.spur l n) s (setPc (.spur l n) (pcOf (.spur l n) s + 4)
          (setGroup (tileAt s l) { g with phase := .committing (getG (.spur l n) s f.ra) s.cyc } s))) := by
  have he := exec_cgcommit (.spur l n) f s
  cases hg : openGroup s l n with
  | none => exact he.trans (issue_bodyHalt h.1 hf (by simp only [hg]))
  | some g =>
    dsimp only
    split
    next hfar => exact he.trans (issue_bodyHalt h.1 hf (by simp only [hg, hfar, ite_true]))
    next hnear => exact he.trans (issue_go h hn hf (by simp only [hg, hnear, ite_false]))

end

/-! CGABORT. -/

/-- The state in which the group of a tile is discarded by its context `n` with CG_ABORT_SOFTWARE (R142). -/
def discardGroup (l : Fin 512) (n : Fin 8) (s : State) : State :=
  let s' := s.updTile (tileAt s l) fun x => { x with group := none }
  setCtxAt s' l n { ctxAt s' l n with cgCode := .cgAbortSoftware }

section
variable (l : Fin 512) (n : Fin 8) (s : State)

theorem tile_discardGroup : (discardGroup l n s).tile (tileAt s l) =
    { s.tile (tileAt s l) with group := none }.setCtx n { ctxAt s l n with cgCode := .cgAbortSoftware } := by
  simp only [discardGroup, setCtxAt, ctxAt, State.tile_updTile, tileAt_updTile, ite_true]
  rfl

@[simp] theorem tileAt_discardGroup : tileAt (discardGroup l n s) l = tileAt s l := rfl

theorem ctxAt_discardGroup : ctxAt (discardGroup l n s) l n = { ctxAt s l n with cgCode := .cgAbortSoftware } := by
  rw [ctxAt, tileAt_discardGroup, tile_discardGroup, Tile.ctxOf_setCtx, if_pos rfl]

@[simp] theorem getG_discardGroup (r : BitVec 5) : getG (.spur l n) (discardGroup l n s) r = getG (.spur l n) s r := by
  simp only [getG, ctxAt_discardGroup]

theorem memOf_discardGroup (i : MemId) : memOf (discardGroup l n s) i = memOf s i := by
  rw [discardGroup, memOf_setCtxAt, memOf_updTile rfl rfl]

end

section
variable {l : Fin 512} {n : Fin 8} {f : FmtQ} {s : State} {img : Img}

/-- CGABORT of an open group: it is discarded, CGSTAT shows CG_ABORT_SOFTWARE, and nothing outside the tile changes but
issue times and granted debug steps (R142). -/
theorem cgabort_discards
    (h : MayIssue (.cgabort (.spur l n) f) (.spur l n) s img) (hn : NotLast (.spur l n) s img)
    (hf : formCode (.cgabort (.spur l n) f) = none) (hg : openGroup s l n ≠ none) :
    ∃ t, exec (.cgabort (.spur l n) f) s = .next t ∧ (t.tile (tileAt s l)).group = none ∧
      pcOf (.spur l n) t = pcOf (.spur l n) s + 4 ∧ cgStatus t l n = Code.cgAbortSoftware.toNat ∧
      (∀ r, getG (.spur l n) t r = getG (.spur l n) s r) ∧ SameMemory s t ∧
      t = { s with tiles := t.tiles, roost := t.roost, sec := t.sec, boards := t.boards, cores := t.cores } := by
  obtain ⟨g, hg⟩ := Option.ne_none_iff_exists'.1 hg
  have hexec := (exec_cgabort (.spur l n) f s).trans
    (issue_go h hn hf (t := discardGroup l n s) (by simp only [hg]; rfl))
  have htile (pc : Nat) : ((setPc (.spur l n) pc (discardGroup l n s)).tile (tileAt s l)).group = none := by
    simp [setPc, setCtxAt, tile_discardGroup, Tile.setCtx]
  have hframe := granted_frame (.cgabort (.spur l n) f) (.spur l n) s
    (setPc (.spur l n) (pcOf (.spur l n) s + 4) (discardGroup l n s))
  refine ⟨_, hexec, ?_, ?_, ?_, ?_, ?_, ?_⟩
  · rw [tile_granted, htile]
  · rw [pcOf_granted, pcOf_setPc]
  · rw [cgStatus_of_noGroup (by simp [htile])]
    simp [setPc, ctxAt_discardGroup]
  · intro r; rw [getG_granted, getG_setPc, getG_discardGroup]
  · refine ⟨fun i a => ?_, ?_⟩
    · rw [memOf_granted, setPc, memOf_setCtxAt, memOf_discardGroup]
    · obtain ⟨b, d, e, ht⟩ := hframe
      rw [ht]
      exact ⟨rfl, rfl, rfl⟩
  · obtain ⟨b, d, e, ht⟩ := hframe
    rw [ht]
    rfl

/-- CGABORT outside a group changes nothing (R142). -/
theorem cgabort_outside
    (h : MayIssue (.cgabort (.spur l n) f) (.spur l n) s img) (hn : NotLast (.spur l n) s img)
    (hf : formCode (.cgabort (.spur l n) f) = none) (hg : openGroup s l n = none) :
    GoesTo (.cgabort (.spur l n) f) (.spur l n) s (pcOf (.spur l n) s + 4) :=
  goesTo_of h hn (exec_cgabort (.spur l n) f s) hf (by simp only [hg])

end

/-! TWR. -/

/-- The entries that a TWR of `va` staged in group `g` notes as used (R221); none where the tile is in no partition. -/
def twrUses (s : State) (l : Nat) (g : Group) (va : Nat) : List Nat :=
  match partOfTile s l with
  | some p => stagedUses s p g va
  | none => []

section
variable {l : Fin 512} {n : Fin 8} {f : FmtQ} {s : State} {img : Img}

/-- TWR outside a group halts; in a group it stages an aligned address below 2^52 (R145). -/
theorem twr_does
    (h : MayIssue (.twr (.spur l n) f) (.spur l n) s img) (hn : NotLast (.spur l n) s img)
    (hf : formCode (.twr (.spur l n) f) = none) :
    match openGroup s l n with
    | none => exec (.twr (.spur l n) f) s =
        .next (granted (.twr (.spur l n) f) (.spur l n) s (haltUnit (.spur l n) .wrongState s))
    | some g =>
      if 2 ^ 52 ≤ getG (.spur l n) s f.ra then exec (.twr (.spur l n) f) s =
        .next (granted (.twr (.spur l n) f) (.spur l n) s (haltUnit (.spur l n) .outOfRange s))
      else if getG (.spur l n) s f.ra % 65536 ≠ 0 then exec (.twr (.spur l n) f) s =
        .next (granted (.twr (.spur l n) f) (.spur l n) s (haltUnit (.spur l n) .illegalValue s))
      else exec (.twr (.spur l n) f) s =
        .next (granted (.twr (.spur l n) f) (.spur l n) s (setPc (.spur l n) (pcOf (.spur l n) s + 4)
          (setGroup (tileAt s l) (stageTwr g (getG (.spur l n) s f.ra) (getG (.spur l n) s f.rb)
            (twrUses s l g (getG (.spur l n) s f.ra))) s))) := by
  have he := exec_twr (.spur l n) f s
  cases hg : openGroup s l n with
  | none => exact he.trans (issue_bodyHalt h.1 hf (by simp only [hg]))
  | some g =>
    dsimp only
    split
    next hfar => exact he.trans (issue_bodyHalt h.1 hf (by simp only [hg, hfar, ite_true]))
    next hnear =>
      split
      next hodd => exact he.trans (issue_bodyHalt h.1 hf (by simp only [hg, hnear, ite_false]; exact if_pos hodd))
      next heven => exact he.trans (issue_go h hn hf (by simp only [hg, hnear, heven, ite_false]; rfl))

end

/-- The instructions of a commit group, each by its own lemma. -/
theorem commitGroupInstructions : CommitGroupInstructions := by
  intro l n f s img u h goes halts hn
  refine ⟨fun hm hf => ?_, fun hm hf => cgcommit_does hm hn hf, fun hm hf => ?_, fun hm hf => twr_does hm hn hf⟩
  · split
    next hfree => exact cgbegin_opens hm hn hf hfree.1 hfree.2
    next hbusy => exact cgbegin_answers hm hn hf hbusy
  · split
    next hnone => exact cgabort_outside hm hn hf hnone
    next hopen => exact cgabort_discards hm hn hf hopen

/-! Capacity (R136). -/

section
variable (g : Group)

theorem Group.abort_of_live (h : g.aborted = none) (c : Code) : g.abort c = { g with aborted := some c } := by
  simp only [Group.abort, h, Option.isSome_none, Bool.false_eq_true, ite_false]

theorem Group.aborted_isSome (h : g.aborted ≠ none) : g.aborted.isSome = true := Option.isSome_iff_ne_none.2 h

/-! A line staged in a group. -/

@[simp] theorem Group.stageLine_aborted (sp : GSpace) (a : Nat) (bs : List (Nat × Byte)) (phys : Option Nat) :
    (g.stageLine sp a bs phys).aborted = g.aborted := by
  unfold Group.stageLine; split <;> rfl
@[simp] theorem Group.stageLine_adds (sp : GSpace) (a : Nat) (bs : List (Nat × Byte)) (phys : Option Nat) :
    (g.stageLine sp a bs phys).adds = g.adds := by
  unfold Group.stageLine; split <;> rfl
@[simp] theorem Group.stageLine_ops (sp : GSpace) (a : Nat) (bs : List (Nat × Byte)) (phys : Option Nat) :
    (g.stageLine sp a bs phys).ops = g.ops := by
  unfold Group.stageLine; split <;> rfl

/-- The group holds the line that bytes are staged in. -/
theorem Group.stageLine_holds (sp : GSpace) (a : Nat) (bs : List (Nat × Byte)) (phys : Option Nat) :
    ∃ x ∈ (g.stageLine sp a bs phys).lines, x.space = sp ∧ x.addr = a := by
  unfold Group.stageLine
  split
  next hheld =>
    obtain ⟨x, hx, hsp⟩ := List.any_eq_true.1 hheld
    have hsp : x.space = sp ∧ x.addr = a := by simpa using hsp
    refine ⟨_, List.mem_map.2 ⟨x, hx, rfl⟩, ?_⟩
    rw [if_pos hsp]
    exact hsp
  next hnew => exact ⟨_, List.mem_append_right _ (List.mem_singleton.2 rfl), rfl, rfl⟩

/-! Each staged operation: nothing in an aborted group, CG_ABORT_CAPACITY past capacity, else the operation is added. -/

theorem stageStore_aborted (sp : GSpace) (a : Nat) (bs : List (Nat × Byte)) (phys : Option Nat) (used : List Nat)
    (h : g.aborted ≠ none) : stageStore g sp a bs phys used = g := by
  simp only [stageStore, g.aborted_isSome h, ite_true]

theorem stageStore_full (sp : GSpace) (a : Nat) (bs : List (Nat × Byte)) (phys : Option Nat) (used : List Nat)
    (h : g.aborted = none) (hnew : g.hasLine sp a = false) (hfull : 32 ≤ g.usedLines) :
    stageStore g sp a bs phys used = { g with aborted := some .cgAbortCapacity } := by
  simp [stageStore, h, hnew, hfull, g.abort_of_live]

theorem stageStore_fits (sp : GSpace) (a : Nat) (bs : List (Nat × Byte)) (phys : Option Nat) (used : List Nat)
    (h : g.aborted = none) (hfits : g.hasLine sp a = true ∨ g.usedLines < 32) :
    stageStore g sp a bs phys used = { g.stageLine sp a bs phys with used := used ++ g.used } := by
  have hcond : (!g.hasLine sp a && decide (32 ≤ g.usedLines)) = false := by
    rcases hfits with hheld | hroom
    · simp [hheld]
    · simp [hroom]
  simp only [stageStore, h, hcond, Option.isSome_none, Bool.false_eq_true, ite_false]

theorem stageAdd_aborted (c : Cnt) (n : Nat) (h : g.aborted ≠ none) : stageAdd g c n = g := by
  simp only [stageAdd, g.aborted_isSome h, ite_true]

theorem stageAdd_full (c : Cnt) (n : Nat) (h : g.aborted = none) (hfull : 8 ≤ g.usedAdds) :
    stageAdd g c n = { g with aborted := some .cgAbortCapacity } := by
  simp [stageAdd, h, hfull, g.abort_of_live]

theorem stageAdd_fits (c : Cnt) (n : Nat) (h : g.aborted = none) (hfits : g.usedAdds < 8) :
    stageAdd g c n = { g with adds := g.adds ++ [⟨c, n⟩] } := by
  simp [stageAdd, h, Nat.not_le.2 hfits]

theorem stageTwr_aborted (va e : Nat) (used : List Nat) (h : g.aborted ≠ none) : stageTwr g va e used = g := by
  simp only [stageTwr, g.aborted_isSome h, ite_true]

theorem stageTwr_full (va e : Nat) (used : List Nat) (h : g.aborted = none) (hfull : 4 ≤ g.usedXlt) :
    stageTwr g va e used = { g with aborted := some .cgAbortCapacity } := by
  simp [stageTwr, h, hfull, g.abort_of_live]

theorem stageTwr_fits (va e : Nat) (used : List Nat) (h : g.aborted = none) (hfits : g.usedXlt < 4) :
    stageTwr g va e used = { g with ops := g.ops ++ [.twr va (BitVec.ofNat 64 e)], used := used ++ g.used } := by
  simp [stageTwr, h, Nat.not_le.2 hfits]

theorem stageKvapp_aborted (va n : Nat) (phys : Option Nat) (used : List Nat) (h : g.aborted ≠ none) :
    stageKvapp g va n phys used = g := by
  simp only [stageKvapp, g.aborted_isSome h, ite_true]

/-- An append exceeds a limit: of the lines, or where it takes a page of the advances or the translation writes. -/
theorem kvapp_exceeds_iff (n : Nat) :
    (decide (32 ≤ g.usedLines) || (n % 256 == 0 && (decide (8 ≤ g.usedAdds) || decide (4 ≤ g.usedXlt)))) = true ↔
      32 ≤ g.usedLines ∨ (n % 256 = 0 ∧ (8 ≤ g.usedAdds ∨ 4 ≤ g.usedXlt)) := by
  simp only [Bool.or_eq_true, Bool.and_eq_true, decide_eq_true_eq, beq_iff_eq]

theorem stageKvapp_full (va n : Nat) (phys : Option Nat) (used : List Nat) (h : g.aborted = none)
    (hfull : 32 ≤ g.usedLines ∨ (n % 256 = 0 ∧ (8 ≤ g.usedAdds ∨ 4 ≤ g.usedXlt))) :
    stageKvapp g va n phys used = { g with aborted := some .cgAbortCapacity } := by
  simp only [stageKvapp, h, (kvapp_exceeds_iff g n).2 hfull, g.abort_of_live h, Option.isSome_none, Bool.false_eq_true,
    ite_true, ite_false]

theorem stageKvapp_fits (va n : Nat) (phys : Option Nat) (used : List Nat) (h : g.aborted = none)
    (hfits : ¬ (32 ≤ g.usedLines ∨ (n % 256 = 0 ∧ (8 ≤ g.usedAdds ∨ 4 ≤ g.usedXlt)))) :
    stageKvapp g va n phys used =
      { g with ops := g.ops ++ [.kvapp va n (phys.map fun a => a / 64 * 64)], used := used ++ g.used } := by
  simp only [stageKvapp, h, (kvapp_exceeds_iff g n).not.2 hfits, Option.isSome_none, Bool.false_eq_true, ite_false]

end

/-- The capacity of a commit group, by what each staged operation does. -/
theorem commitGroupCapacity : CommitGroupCapacity := by
  refine ⟨?_, fun g c n => ⟨stageAdd_aborted g c n, stageAdd_full g c n, stageAdd_fits g c n⟩,
    fun g va e used => ⟨stageTwr_aborted g va e used, stageTwr_full g va e used, stageTwr_fits g va e used⟩,
    fun g va n phys used =>
      ⟨stageKvapp_aborted g va n phys used, stageKvapp_full g va n phys used, stageKvapp_fits g va n phys used⟩⟩
  intro g sp a bs phys used
  refine ⟨stageStore_aborted g sp a bs phys used, fun h hnew hfull => ?_, fun h hfits => ?_⟩
  · rw [stageStore_full g sp a bs phys used h hnew hfull]
    exact ⟨rfl, rfl⟩
  · rw [stageStore_fits g sp a bs phys used h hfits]
    exact ⟨by simp [h], by simp, by simp, g.stageLine_holds sp a bs phys⟩

/-- Settles O17: each instruction of a commit group, and each operation staged in one. -/
theorem commitGroups : Obligations.CommitGroups := ⟨commitGroupInstructions, commitGroupCapacity⟩

end Sys2Proof.Machine
